-- ==== Sys2Proof/Word.lean ====
section
/-! DEFINITION. The words of the block: bytes, command words, response words, times. -/

namespace Sys2Proof

/-- A byte: an unsigned integer 0 to 255, bit 0 least significant (00_scope.md R13). -/
abbrev Byte := BitVec 8

/-- The one command format, 20 bits: OP `[19:16]`, A `[15:8]`, B `[7:0]` (30_encoding.md R81). -/
abbrev CmdWord := BitVec 20

/-- The response word, 12 bits: CODE `[11:8]`, DATA `[7:0]` (30_encoding.md R87). -/
abbrev RspWord := BitVec 12

/-- A time: a natural number of ticks, unbounded (00_scope.md R16). -/
abbrev Time := Nat

end Sys2Proof
end

