-- ==== Sys2Proof/Config.lean ====
section
/-! DEFINITION. The configuration: every parameter of 00_scope.md R6 to R9 as plain data, the
reference configuration of R12, and the model's one free value. -/

namespace Sys2Proof

/-- A sample component: the exact rational `num / den` (00_scope.md R17). A zero `den` stands for a
component that is no finite rational; `Config.wf` refuses it (00_scope.md R11(a)). -/
structure Ratio where
  num : Int
  den : Nat
  deriving DecidableEq, Repr

/-- One dataset entry: x, y, z acceleration (00_scope.md R6). -/
structure Sample where
  x : Ratio
  y : Ratio
  z : Ratio
  deriving DecidableEq, Repr

/-- The six data registers in the order of `ADDR_DATA[0..5]` (00_scope.md R7; 10_state.md R28). -/
inductive DataReg
  | xHigh | xLow | yHigh | yLow | zHigh | zLow
  deriving DecidableEq, Repr

/-- One value for each of the six data registers. -/
structure PerData (α : Type) where
  xHigh : α
  xLow : α
  yHigh : α
  yLow : α
  zHigh : α
  zLow : α
  deriving DecidableEq, Repr

/-- How an exact tie is rounded: the parameter `Round` of 42_acquisition.md R197. -/
inductive RoundTies
  /-- Ties to even: the spec's choice `ROUND_TIES` (00_scope.md R9). -/
  | toEven
  /-- Half away from zero: "the other common rule" of 42_acquisition.md R197. -/
  | awayFromZero
  /-- Either neighbour, by the free value `Config.tieRoundsUp`: "a configuration function required
  only to return an integer within 1/2 of its argument" (42_acquisition.md R197). -/
  | unspecified
  deriving DecidableEq, Repr

/-- A configuration: one choice of every parameter (00_scope.md section 3). -/
structure Config where
  /-- `DEV_ADDR`, compared whole (00_scope.md R6; 30_encoding.md R84). -/
  devAddr : Byte
  /-- `ODR_TICKS`, the interval between samples in ticks (00_scope.md R6). -/
  odrTicks : Nat
  /-- `DATASET` (00_scope.md R6). -/
  dataset : List Sample
  /-- `CONFIG_REGS`: pairs of address and reset value (00_scope.md R7). -/
  configRegs : List (Byte × Byte)
  /-- `ADDR_PWR_MGMT` (00_scope.md R7). -/
  addrPwrMgmt : Byte
  /-- `ADDR_STATUS` (00_scope.md R7). -/
  addrStatus : Byte
  /-- `ADDR_DATA[0..5]` (00_scope.md R7). -/
  addrData : PerData Byte
  /-- `DATA_RESET` (00_scope.md R7). -/
  dataReset : Byte
  /-- `MODE_LSB` (00_scope.md R8). -/
  modeLsb : Nat
  /-- `MODE_LOW_NOISE` (00_scope.md R8). -/
  modeLowNoise : BitVec 2
  /-- `MODE_DISABLED` (00_scope.md R8). -/
  modeDisabled : BitVec 2
  /-- `WRITE_PATH_EN` (00_scope.md R9). -/
  writePathEn : Bool
  /-- `PTR_WIDTH` (00_scope.md R9; 10_state.md R25). -/
  ptrWidth : Nat
  /-- `ROUND_TIES` (00_scope.md R9; 42_acquisition.md R197). -/
  roundTies : RoundTies
  deriving DecidableEq, Repr

/-- FREE VALUE (DESIGN CHOICE, safe; log 12): for `RoundTies.unspecified`, whether the tie half-way
between `f` and `f + 1` goes up to `f + 1`. It has no body, so no proof can see which. -/
opaque Config.tieRoundsUp (f : Int) : Bool

/-- REFCFG, the reference configuration (00_scope.md R12). -/
def Config.reference : Config where
  devAddr := 0x68#8
  odrTicks := 40
  dataset := [⟨⟨0, 1⟩, ⟨0, 1⟩, ⟨1, 1⟩⟩, ⟨⟨1, 2⟩, ⟨-1, 2⟩, ⟨49, 50⟩⟩]
  configRegs := [(0x1F#8, 0x00#8), (0x21#8, 0x06#8)]
  addrPwrMgmt := 0x1F#8
  addrStatus := 0x39#8
  addrData := ⟨0x0B#8, 0x0C#8, 0x0D#8, 0x0E#8, 0x0F#8, 0x10#8⟩
  dataReset := 0x00#8
  modeLsb := 0
  modeLowNoise := 0b11#2
  modeDisabled := 0b00#2
  writePathEn := true
  ptrWidth := 8
  roundTies := .toEven

end Sys2Proof
end

