-- ==== Sys2Proof/Machine/Operands.lean ====
section
/-! DEFINITION. Addresses and operands under a configuration: the category of an address, the mode
field, the pointer's increment, the dataset's cyclic index. -/

namespace Sys2Proof.Machine

open Sys2Proof

/-- The value of one of six. -/
def perDataGet {α : Type} (d : PerData α) : DataReg → α
  | .xHigh => d.xHigh
  | .xLow => d.xLow
  | .yHigh => d.yHigh
  | .yLow => d.yLow
  | .zHigh => d.zHigh
  | .zLow => d.zLow

/-- The sentinel byte every unmapped address reads as (00_scope.md R10; 10_state.md R30). -/
def sentinel : Byte := 0xAB#8

/-- The four categories of an address (10_state.md R26). -/
inductive Category
  | config
  | status
  | data (k : DataReg)
  | unmapped
  deriving DecidableEq, Repr

/-- Whether `a` occurs as an address in `CONFIG_REGS` (10_state.md R26). -/
def isConfigAddr (c : Config) (a : Nat) : Bool :=
  c.configRegs.any (fun p => p.1.toNat == a)

/-- The data register whose address is `a`, if there is one (10_state.md R26). -/
def dataRegAt (c : Config) (a : Nat) : Option DataReg :=
  if a = c.addrData.xHigh.toNat then some .xHigh
  else if a = c.addrData.xLow.toNat then some .xLow
  else if a = c.addrData.yHigh.toNat then some .yHigh
  else if a = c.addrData.yLow.toNat then some .yLow
  else if a = c.addrData.zHigh.toNat then some .zHigh
  else if a = c.addrData.zLow.toNat then some .zLow
  else none

/-- The category of an address (10_state.md R26). Every address above `0xFF`, which only a pointer
wider than 8 bits can hold, is unmapped (10_state.md R25). -/
def category (c : Config) (a : Nat) : Category :=
  if isConfigAddr c a then .config
  else if a = c.addrStatus.toNat then .status
  else match dataRegAt c a with
    | some k => .data k
    | none => .unmapped

/-- The reset value of the configuration register at `a` (00_scope.md R7), which is also what `cfg`
reads at an address it does not list (log 10). An address outside `CONFIG_REGS` has no storage; here
it gives the sentinel. -/
def resetByte (c : Config) (a : Nat) : Byte :=
  match c.configRegs.find? (fun p => p.1.toNat == a) with
  | some p => p.2
  | none => sentinel

/-- The mode field `v[MODE_LSB+1 : MODE_LSB]`, that is `(v >> MODE_LSB) mod 4`
(41_register_access.md R171; 10_state.md R35). -/
def modeField (c : Config) (v : Byte) : BitVec 2 :=
  v.extractLsb' c.modeLsb 2

/-- The pointer after an access at `p`: `(p + 1) mod 2^PTR_WIDTH` (10_state.md R25). -/
def nextPtr (c : Config) (p : Nat) : Nat :=
  (p + 1) % 2 ^ c.ptrWidth

/-- The sample at position `i` of the cyclic dataset (20_memory.md R51; 42_acquisition.md R196): for
`i < DATASET_LEN`, which every reachable state satisfies, this is `DATASET[i]`. An empty dataset, which
`Config.wf` refuses, gives a zero sample (log 9). -/
def sampleAt (c : Config) (i : Nat) : Sample :=
  (c.dataset[i % c.dataset.length]?).getD ⟨⟨0, 1⟩, ⟨0, 1⟩, ⟨0, 1⟩⟩

end Sys2Proof.Machine
end

