-- ==== Sys2Proof/Syntax.lean ====
section
/-! DEFINITION. The commands of the block: one constructor per row of spec/opcode_table.json. -/

namespace Sys2Proof

/-- The ten commands (30_encoding.md R80). The first seven are bus-port commands, the last three
register-port commands. Operands are bytes. -/
inductive Instr
  /-- START_W, `START <hex> WRITE`: the device address called (40_bus_protocol.md R123). -/
  | startW (a : Byte)
  /-- START_R, `START <hex> READ`: the device address called (40_bus_protocol.md R125). -/
  | startR (a : Byte)
  /-- BYTE, a lone hex byte: register address or data byte (40_bus_protocol.md R124, R128). -/
  | byte (b : Byte)
  /-- ACK (40_bus_protocol.md R126). -/
  | ack
  /-- NACK_STOP, `NACK STOP` (40_bus_protocol.md R127). -/
  | nackStop
  /-- STOP (40_bus_protocol.md R129; 30_encoding.md R82). -/
  | stop
  /-- BUS_MALFORMED: any bus-port input that is none of the above (40_bus_protocol.md R130). -/
  | busMalformed
  /-- READ_BYTE: register address (41_register_access.md R163). -/
  | readByte (r : Byte)
  /-- WRITE_BYTE: register address and value (41_register_access.md R164). -/
  | writeByte (r v : Byte)
  /-- REG_UNRECOGNIZED: any register-port input that is neither (41_register_access.md R165). -/
  | regUnrecognized
  deriving DecidableEq, Repr

/-- Whether a command belongs to the register port: READ_BYTE, WRITE_BYTE, REG_UNRECOGNIZED
(30_encoding.md R80). -/
def Instr.onRegisterPort : Instr → Bool
  | .startW _ => false
  | .startR _ => false
  | .byte _ => false
  | .ack => false
  | .nackStop => false
  | .stop => false
  | .busMalformed => false
  | .readByte _ => true
  | .writeByte _ _ => true
  | .regUnrecognized => true

/-- Whether a command is one of the eight named rows of the opcode map, which have exactly one word
each (30_encoding.md R83); the two catch-all rows have many. -/
def Instr.named : Instr → Bool
  | .startW _ => true
  | .startR _ => true
  | .byte _ => true
  | .ack => true
  | .nackStop => true
  | .stop => true
  | .busMalformed => false
  | .readByte _ => true
  | .writeByte _ _ => true
  | .regUnrecognized => false

end Sys2Proof
end

