-- ==== Sys2Proof/Machine/State.lean ====
section
/-! DEFINITION. The state of the block (10_state.md R20), the environment's side of it, the reasons a
step can stop, and the state after reset (10_state.md R41). -/

namespace Sys2Proof.Machine

open Sys2Proof

/-- The protocol states (10_state.md R21). -/
inductive Fsm
  | idle
  | registerSelect
  | writeActive
  | readActive
  deriving DecidableEq, Repr

/-- The direction of a session (10_state.md R23). -/
inductive Direction
  | write
  | read
  deriving DecidableEq, Repr

/-- The responses (30_encoding.md R86). -/
inductive Rsp
  | ack
  | ackData (b : Byte)
  /-- The "end of transfer" token. -/
  | eot
  /-- The generic protocol-error token. -/
  | perr
  | rdData (b : Byte)
  | success
  | cmdError
  /-- The unrecoverable-error signal. -/
  | fatal
  deriving DecidableEq, Repr

/-- One input of the environment: a command word with the time at which it is processed
(00_scope.md R16; 70_reset_and_hazards.md R280), or the reset event (70_reset_and_hazards.md R260). -/
inductive Input
  | command (now : Time) (word : CmdWord)
  | reset
  deriving DecidableEq, Repr

/-- The storage of the configuration registers: pairs of address and byte, addresses strictly rising,
no pair equal to the reset value its address reads when unlisted (log 10). -/
abbrev Memory := List Host.Cell

/-- The state. The fields from `fsm` to `fatal` are the block's (10_state.md R20). -/
structure State where
  /-- The configuration, constant for the life of the block (10_state.md R40). The model's own field
  (DESIGN CHOICE, safe; log 1). -/
  config : Config
  /-- Protocol state (10_state.md R21). -/
  fsm : Fsm
  /-- Register pointer, below `2^PTR_WIDTH` (10_state.md R22). -/
  ptr : Option Nat
  /-- Direction of the session (10_state.md R23). -/
  dir : Option Direction
  /-- The configuration registers' bytes (10_state.md R27). -/
  cfg : Memory
  /-- The six data registers (10_state.md R28). -/
  data : PerData Byte
  /-- The time from which the next sample is scheduled (10_state.md R31). -/
  last : Option Time
  /-- The position in the dataset of the next sample (10_state.md R33). -/
  idx : Nat
  /-- The fault latch (10_state.md R34). -/
  fatal : Bool
  /-- What the environment has still to present, in order. The model's own field (DESIGN CHOICE, safe;
  log 2). -/
  inbox : List Input
  /-- The time input of the command being processed (00_scope.md R16). The model's own field (DESIGN
  CHOICE, safe; log 3). -/
  now : Time
  /-- The response the step just taken gave, `none` if it gave none (30_encoding.md R86). The model's
  own field (DESIGN CHOICE, safe; log 4). -/
  rsp : Option Rsp
  deriving DecidableEq, Repr

/-- Why a step stops with a fault. -/
inductive Fault
  /-- Raised by every command, and by waiting, while `fatal = 1`: the block has no step
  (60_exceptions.md R226). Safe: the spec says that a model treats it as a fault (log 7). -/
  | halted
  /-- Raised by a bus access in WRITE_ACTIVE or READ_ACTIVE while no register is selected: the
  precondition `ptr = some p` of 40_bus_protocol.md R128 and R134 fails. No state with the session
  invariant (10_state.md R24) raises it. Safe: the model stops (log 8). -/
  | noPointer
  deriving DecidableEq, Repr

/-- Why a step is refused. -/
inductive Refusal
  /-- Raised by an arm of `exec` for an instruction without a meaning; no arm does. Safe. -/
  | notModelled (mnemonic : String)
  /-- Raised by `step` when the configuration is not well-formed: "a model refuses any other
  configuration" (00_scope.md R11). Safe. -/
  | illFormedConfig
  deriving DecidableEq, Repr

/-- The outcome of a step. -/
abbrev Result := Host.Outcome State Fault Refusal

/-- The state after reset under a configuration (10_state.md R41): `cfg` lists nothing, so that every
configuration register reads its reset value. The environment's fields are empty (logs 2 to 4). -/
def State.ofConfig (c : Config) : State where
  config := c
  fsm := .idle
  ptr := none
  dir := none
  cfg := []
  data := ⟨c.dataReset, c.dataReset, c.dataReset, c.dataReset, c.dataReset, c.dataReset⟩
  last := none
  idx := 0
  fatal := false
  inbox := []
  now := 0
  rsp := none

/-- The machine right after reset, with the reference configuration (10_state.md R41; 00_scope.md R12). -/
def State.reset : State := State.ofConfig Config.reference

end Sys2Proof.Machine
end

