-- ==== Sys2Proof/Machine/Ops.lean ====
section
/-! DEFINITION. The shared operations: the configuration registers' memory, the response, the abnormal
outcomes of a command (60_exceptions.md R220 to R226), the ends of a session, reset and waiting. -/

namespace Sys2Proof.Machine

open Sys2Proof

/-! ## The memory of the configuration registers -/

/-- One byte; `dflt` is what an unlisted address reads as. -/
def Memory.read (dflt : Nat → Byte) : Memory → Nat → Byte
  | [], a => dflt a
  | (b, v) :: rest, a => if a = b then v else Memory.read dflt rest a

/-- Store one byte, keeping the canonical form: a byte equal to what an unlisted address reads as is
not listed. -/
def Memory.write (dflt : Nat → Byte) : Memory → Nat → Byte → Memory
  | [], a, v => if v = dflt a then [] else [(a, v)]
  | (b, w) :: rest, a, v =>
    if a < b then (if v = dflt a then (b, w) :: rest else (a, v) :: (b, w) :: rest)
    else if a = b then (if v = dflt a then rest else (a, v) :: rest)
    else (b, w) :: Memory.write dflt rest a v

/-- Every listed address is above `lo` (when there is a `lo`), rising strictly, and no listed byte is
its default. -/
def Memory.wfAbove (dflt : Nat → Byte) : Option Nat → Memory → Bool
  | _, [] => true
  | lo, (a, v) :: rest =>
    (match lo with
      | none => true
      | some b => decide (b < a)) && v != dflt a && Memory.wfAbove dflt (some a) rest

/-- The canonical form (log 10). -/
def Memory.wf (dflt : Nat → Byte) (m : Memory) : Bool := Memory.wfAbove dflt none m

/-- `cfg[a]` (00_scope.md R14; 10_state.md R27). -/
def State.cfgByte (s : State) (a : Nat) : Byte := Memory.read (resetByte s.config) s.cfg a

/-- `cfg[a] <- v` (00_scope.md R14; 10_state.md R27). -/
def State.setCfgByte (s : State) (a : Nat) (v : Byte) : State :=
  { s with cfg := Memory.write (resetByte s.config) s.cfg a v }

/-! ## Responses and abnormal outcomes -/

/-- `respond X` (00_scope.md R14). -/
def State.respond (s : State) (r : Rsp) : State := { s with rsp := some r }

/-- The session ends: `fsm <- IDLE`, `ptr <- none`, `dir <- none` (40_bus_protocol.md R121, R122). -/
def State.clearSession (s : State) : State := { s with fsm := .idle, ptr := none, dir := none }

/-- `Abort`, that is `raise ProtocolError` (40_bus_protocol.md R121; 60_exceptions.md R222). -/
def abort (s : State) : State := s.clearSession.respond .perr

/-- `EndSession` (40_bus_protocol.md R122). -/
def endSession (s : State) : State := s.clearSession.respond .eot

/-- `raise CommandError`: change no state, respond CMD_ERROR (00_scope.md R14; 60_exceptions.md R223). -/
def commandError (s : State) : State := s.respond .cmdError

/-- `raise Fatal`: set the latch, respond FATAL (00_scope.md R14; 60_exceptions.md R224). -/
def raiseFatal (s : State) : State := { s with fatal := true }.respond .fatal

/-- A command's outcome `k`, unless the block is halted: while `fatal = 1` it has no step
(00_scope.md R15; 60_exceptions.md R226). -/
def unlessHalted (s : State) (k : Result) : Result := if s.fatal then .fault .halted else k

/-! ## Reset and waiting -/

/-- The reset event (70_reset_and_hazards.md R260): every field of the block at its value of
10_state.md R41, whatever the state was. The environment's remaining inputs and its time are not the
block's and stay (DEDUCED, safe; log 5). -/
def resetEvent (s : State) : State :=
  { State.ofConfig s.config with inbox := s.inbox, now := s.now }

/-- A step in which no input is there: nothing changes and there is no response (DESIGN CHOICE, safe;
log 6). A halted block has no step at all (60_exceptions.md R226). -/
def idleStep (s : State) : Result := unlessHalted s (.next { s with rsp := none })

end Sys2Proof.Machine
end

