-- ==== Sys2Proof/Machine/Flags.lean ====
section
/-! DEFINITION. The flags: the computed data-ready byte (10_state.md R36, R39), the fault latch
(10_state.md R34) and its output (60_exceptions.md R238). There are no others (10_state.md R39). -/

namespace Sys2Proof.Machine

open Sys2Proof

/-- The byte a STATUS read returns: bit 0 is DRDY, bits 7 to 1 are 0 (10_state.md R36). -/
def statusByte (ready : Bool) : Byte := if ready then 0x01#8 else 0x00#8

/-- The schedule's comparison: `last + ODR_TICKS < now`, strictly (42_acquisition.md R201). -/
def sampleDue (c : Config) (t now : Time) : Bool := decide (t + c.odrTicks < now)

/-- Whether a mode code is one of the two unsupported ones (00_scope.md R8). -/
def unsupportedMode (c : Config) (m : BitVec 2) : Bool := m != c.modeLowNoise && m != c.modeDisabled

/-- The `fatal` output, driven continuously (60_exceptions.md R238). -/
def fatalOutput (s : State) : Bool := s.fatal

/-- `enabled = (last != none)` (10_state.md R32). -/
def enabled (s : State) : Bool := s.last.isSome

/-- The suggested codes of the four protocol states, which no command can observe (10_state.md R21). -/
def fsmCode : Fsm → BitVec 2
  | .idle => 0b00#2
  | .registerSelect => 0b01#2
  | .writeActive => 0b10#2
  | .readActive => 0b11#2

end Sys2Proof.Machine
end

