-- ==== Sys2Proof/Machine/Acquisition.lean ====
section
/-! DEFINITION. The data-acquisition timing engine (42_acquisition.md). -/

namespace Sys2Proof.Machine

open Sys2Proof

/-! ## The fixed-point encoding -/

/-- Which of `f` and `f + 1` the tie `f + 1/2` goes to (42_acquisition.md R197; log 12). -/
def roundTie : RoundTies → Int → Int
  | .toEven, f => if f % 2 = 0 then f else f + 1
  | .awayFromZero, f => if 0 ≤ f then f + 1 else f
  | .unspecified, f => if Config.tieRoundsUp f then f + 1 else f

/-- `Round(q)`: the integer nearest to `q`, ties by the configuration (42_acquisition.md R197). -/
def roundRatio (ties : RoundTies) (q : Ratio) : Int :=
  let f := q.num / (q.den : Int)
  let r := q.num % (q.den : Int)
  if 2 * r < q.den then f
  else if (q.den : Int) < 2 * r then f + 1
  else roundTie ties f

/-- The exact product of a rational and an integer (42_acquisition.md R194, R205). -/
def timesInt (q : Ratio) (k : Int) : Ratio := { q with num := q.num * k }

/-- `Encode16(v) = Round(v * 16384) mod 65536` (42_acquisition.md R194): the low 16 bits, no saturation
(R198). -/
def encode16 (c : Config) (v : Ratio) : BitVec 16 :=
  BitVec.ofInt 16 (roundRatio c.roundTies (timesInt v 16384))

/-- The high byte of `Bytes16(raw)`: bits 15 to 8 (42_acquisition.md R195). -/
def highByte (raw : BitVec 16) : Byte := raw.extractLsb' 8 8

/-- The low byte of `Bytes16(raw)`: bits 7 to 0 (42_acquisition.md R195). -/
def lowByte (raw : BitVec 16) : Byte := raw.extractLsb' 0 8

/-- The six bytes of a sample, the high byte of each axis first (42_acquisition.md R193, R195;
20_memory.md R54). -/
def sampleBytes (c : Config) (p : Sample) : PerData Byte where
  xHigh := highByte (encode16 c p.x)
  xLow := lowByte (encode16 c p.x)
  yHigh := highByte (encode16 c p.y)
  yLow := lowByte (encode16 c p.y)
  zHigh := highByte (encode16 c p.z)
  zLow := lowByte (encode16 c p.z)

/-! ## The engine's operations -/

/-- `Enable(now)` (42_acquisition.md R190). -/
def enable (now : Time) (s : State) : State := { s with last := some now }

/-- `Disable()` (42_acquisition.md R191). -/
def disable (s : State) : State := { s with last := none }

/-- `Pull()` (42_acquisition.md R193). -/
def pull (s : State) : State :=
  { s with
    idx := (s.idx + 1) % s.config.dataset.length
    data := sampleBytes s.config (sampleAt s.config s.idx) }

/-- `IsNewDataReady(now)` (42_acquisition.md R192): whether a sample was pulled, and the state after. At
most one pull, and `last` becomes the scheduled time, not `now`. -/
def isNewDataReady (now : Time) (s : State) : Bool × State :=
  match s.last with
  | none => (false, s)
  | some t =>
    if sampleDue s.config t now then
      (true, { pull s with last := some (t + s.config.odrTicks) })
    else (false, s)

end Sys2Proof.Machine
end

