-- ==== Sys2Proof/Machine/RegisterFile.lean ====
section
/-! DEFINITION. The register file's operations, which every access goes through
(41_register_access.md R160, R161, R166). -/

namespace Sys2Proof.Machine

open Sys2Proof

/-- `RegRead(a, now)` (41_register_access.md R160): the byte read and the state after. Only a read of
the status register changes the state. -/
def regRead (a : Nat) (now : Time) (s : State) : Byte × State :=
  match category s.config a with
  | .config => (s.cfgByte a, s)
  | .status => (statusByte (isNewDataReady now s).1, (isNewDataReady now s).2)
  | .data k => (perDataGet s.data k, s)
  | .unmapped => (sentinel, s)

/-- `PwrWrite(v, now)` (41_register_access.md R166). The field is that of the written value, and the
effect depends on the write, not on a change of mode (R171, R172). -/
def pwrWrite (v : Byte) (now : Time) (s : State) : State :=
  if modeField s.config v = s.config.modeLowNoise then enable now s
  else if modeField s.config v = s.config.modeDisabled then disable s
  else raiseFatal s

/-- `RegWrite(a, v, now)` (41_register_access.md R161): the byte is stored first, then the mode is
examined (R167); a write to any other category does nothing (R170). -/
def regWrite (a : Nat) (v : Byte) (now : Time) (s : State) : State :=
  match category s.config a with
  | .config =>
    if a = s.config.addrPwrMgmt.toNat then pwrWrite v now (s.setCfgByte a v) else s.setCfgByte a v
  | .status => s
  | .data _ => s
  | .unmapped => s

end Sys2Proof.Machine
end

