-- ==== Sys2Proof/Machine/Bus.lean ====
section
/-! DEFINITION. The seven bus-port commands (40_bus_protocol.md). Each matches on the protocol state,
one arm per cell of the table of R131; the state is checked before the device address, and the address
before any register (R133). -/

namespace Sys2Proof.Machine

open Sys2Proof

/-- `ReadNext` (40_bus_protocol.md R134): the register at the pointer, then the pointer advances. -/
def readNext (s : State) : Result :=
  match s.ptr with
  | none => .fault .noPointer
  | some p =>
    .next ({ (regRead p s.now s).2 with ptr := some (nextPtr s.config p) }.respond
      (.ackData (regRead p s.now s).1))

/-- The data write of BYTE in WRITE_ACTIVE (40_bus_protocol.md R128): after a fatal write the pointer
does not advance. -/
def writeNext (b : Byte) (s : State) : Result :=
  match s.ptr with
  | none => .fault .noPointer
  | some p =>
    let t := regWrite p b s.now s
    if t.fatal then .next (t.respond .fatal)
    else .next ({ t with ptr := some (nextPtr s.config p) }.respond .ack)

/-- START_W (40_bus_protocol.md R123). -/
def execStartW (a : Byte) (s : State) : Result :=
  unlessHalted s <|
    match s.fsm with
    | .idle =>
      if a = s.config.devAddr then
        .next ({ s with fsm := .registerSelect, dir := some .write }.respond .ack)
      else .next (abort s)
    | .registerSelect => .next (abort s)
    | .writeActive => .next (abort s)
    | .readActive => .next (abort s)

/-- START_R (40_bus_protocol.md R125). -/
def execStartR (a : Byte) (s : State) : Result :=
  unlessHalted s <|
    match s.fsm with
    | .idle => .next (abort s)
    | .registerSelect => .next (abort s)
    | .writeActive =>
      if a = s.config.devAddr then readNext { s with dir := some .read, fsm := .readActive }
      else .next (abort s)
    | .readActive => .next (abort s)

/-- BYTE: register select in REGISTER_SELECT (40_bus_protocol.md R124), data write in WRITE_ACTIVE if
WRITE_PATH_EN = 1 (R128). -/
def execByte (b : Byte) (s : State) : Result :=
  unlessHalted s <|
    match s.fsm with
    | .idle => .next (abort s)
    | .registerSelect => .next ({ s with ptr := some b.toNat, fsm := .writeActive }.respond .ack)
    | .writeActive => if s.config.writePathEn then writeNext b s else .next (abort s)
    | .readActive => .next (abort s)

/-- ACK (40_bus_protocol.md R126). -/
def execAck (s : State) : Result :=
  unlessHalted s <|
    match s.fsm with
    | .idle => .next (abort s)
    | .registerSelect => .next (abort s)
    | .writeActive => .next (abort s)
    | .readActive => readNext s

/-- NACK_STOP (40_bus_protocol.md R127). -/
def execNackStop (s : State) : Result :=
  unlessHalted s <|
    match s.fsm with
    | .idle => .next (abort s)
    | .registerSelect => .next (abort s)
    | .writeActive => .next (abort s)
    | .readActive => .next (endSession s)

/-- STOP, accepted only if WRITE_PATH_EN = 1 (40_bus_protocol.md R129). -/
def execStop (s : State) : Result :=
  unlessHalted s <|
    match s.fsm with
    | .idle => .next (abort s)
    | .registerSelect => .next (abort s)
    | .writeActive => if s.config.writePathEn then .next (endSession s) else .next (abort s)
    | .readActive => .next (abort s)

/-- BUS_MALFORMED: `Abort` in every state (40_bus_protocol.md R130). -/
def execBusMalformed (s : State) : Result :=
  unlessHalted s (.next (abort s))

end Sys2Proof.Machine
end

