-- ==== Sys2Proof/Machine/RegisterPort.lean ====
section
/-! DEFINITION. The three register-port commands (41_register_access.md). None reads or writes the
session (R169). -/

namespace Sys2Proof.Machine

open Sys2Proof

/-- READ_BYTE (41_register_access.md R163). -/
def execReadByte (r : Byte) (s : State) : Result :=
  unlessHalted s
    (.next ((regRead r.toNat s.now s).2.respond (.rdData (regRead r.toNat s.now s).1)))

/-- WRITE_BYTE (41_register_access.md R164). -/
def execWriteByte (r v : Byte) (s : State) : Result :=
  unlessHalted s <|
    let t := regWrite r.toNat v s.now s
    if t.fatal then .next (t.respond .fatal) else .next (t.respond .success)

/-- REG_UNRECOGNIZED (41_register_access.md R165). -/
def execRegUnrecognized (s : State) : Result :=
  unlessHalted s (.next (commandError s))

end Sys2Proof.Machine
end

