-- ==== Sys2Proof/Machine/Dispatch.lean ====
section
/-! DEFINITION. The dispatch of a command to its meaning: one arm per constructor of Instr. -/

namespace Sys2Proof.Machine

open Sys2Proof

/-- The outcome of one command at the time `s.now` (00_scope.md R15). -/
def exec (i : Instr) (s : State) : Host.Outcome State Fault Refusal :=
  match i with
  | .startW a => Sys2Proof.Machine.execStartW a s
  | .startR a => Sys2Proof.Machine.execStartR a s
  | .byte b => Sys2Proof.Machine.execByte b s
  | .ack => Sys2Proof.Machine.execAck s
  | .nackStop => Sys2Proof.Machine.execNackStop s
  | .stop => Sys2Proof.Machine.execStop s
  | .busMalformed => Sys2Proof.Machine.execBusMalformed s
  | .readByte r => Sys2Proof.Machine.execReadByte r s
  | .writeByte r v => Sys2Proof.Machine.execWriteByte r v s
  | .regUnrecognized => Sys2Proof.Machine.execRegUnrecognized s

end Sys2Proof.Machine
end

