-- ==== Sys2Proof/Decode.lean ====
section
/-! DEFINITION. Decoding and encoding of commands: the binary command word (30_encoding.md R81 to
R85) and the text form (30_encoding.md R89 to R92). No state enters (R96). -/

namespace Sys2Proof

/-! ## The binary command word -/

/-- Field OP, bits `[19:16]` (30_encoding.md R81). -/
def opField (w : CmdWord) : BitVec 4 := w.extractLsb' 16 4

/-- Field A, bits `[15:8]` (30_encoding.md R81). -/
def aField (w : CmdWord) : Byte := w.extractLsb' 8 8

/-- Field B, bits `[7:0]` (30_encoding.md R81). -/
def bField (w : CmdWord) : Byte := w.extractLsb' 0 8

/-- A row of the opcode map matches a word: `word & mask = match` (30_encoding.md R83). -/
def rowMatches (mask pattern w : CmdWord) : Bool := w &&& mask == pattern

/-- The opcode map: a word decodes to the first row it matches (30_encoding.md R83). The last of the
ten rows, mask and match `0x80000`, catches every word that reaches it, so its test is not written. -/
def decode (w : CmdWord) : Instr :=
  if rowMatches 0xF00FF#20 0x10000#20 w then .startW (aField w)
  else if rowMatches 0xF00FF#20 0x20000#20 w then .startR (aField w)
  else if rowMatches 0xF00FF#20 0x30000#20 w then .byte (aField w)
  else if rowMatches 0xFFFFF#20 0x40000#20 w then .ack
  else if rowMatches 0xFFFFF#20 0x50000#20 w then .nackStop
  else if rowMatches 0xFFFFF#20 0x60000#20 w then .stop
  else if rowMatches 0xF00FF#20 0x80000#20 w then .readByte (aField w)
  else if rowMatches 0xF0000#20 0x90000#20 w then .writeByte (aField w) (bField w)
  else if rowMatches 0x80000#20 0x00000#20 w then .busMalformed
  else .regUnrecognized

/-- A word from its three fields (30_encoding.md R81). -/
def cmdWord (op : BitVec 4) (a b : Byte) : CmdWord := op ++ a ++ b

/-- The word of a command (30_encoding.md R83). The two catch-all commands have many words; the model
writes the examples of 40_bus_protocol.md R130 and 41_register_access.md R165 (DESIGN CHOICE, safe;
log 15). -/
def encode : Instr → CmdWord
  | .startW a => cmdWord 0x1#4 a 0x00#8
  | .startR a => cmdWord 0x2#4 a 0x00#8
  | .byte b => cmdWord 0x3#4 b 0x00#8
  | .ack => cmdWord 0x4#4 0x00#8 0x00#8
  | .nackStop => cmdWord 0x5#4 0x00#8 0x00#8
  | .stop => cmdWord 0x6#4 0x00#8 0x00#8
  | .busMalformed => cmdWord 0x0#4 0x00#8 0x00#8
  | .readByte r => cmdWord 0x8#4 r 0x00#8
  | .writeByte r v => cmdWord 0x9#4 r v
  | .regUnrecognized => cmdWord 0xA#4 0x00#8 0x00#8

/-- The instruction read from `nbits` bits of `w`: the command word is one unit of 20 bits, so there is
no byte order to apply; a number with a bit above bit 19 is no command word (log 16). -/
def decodeTableWord (nbits w : Nat) : Option Instr :=
  if w % 2 ^ nbits < 2 ^ 20 then some (decode (BitVec.ofNat 20 (w % 2 ^ nbits))) else none

/-! ## The text form -/

/-- The six whitespace characters (30_encoding.md R89). -/
def isSpaceChar (ch : Char) : Bool :=
  ch.toNat == 0x20 || (0x09 ≤ ch.toNat && ch.toNat ≤ 0x0D)

/-- Tokens of a message, `cur` holding the current token's characters in reverse order
(30_encoding.md R89). -/
def tokensFrom (cur : List Char) : List Char → List (List Char)
  | [] => if cur.isEmpty then [] else [cur.reverse]
  | ch :: rest =>
    if isSpaceChar ch then
      (if cur.isEmpty then tokensFrom [] rest else cur.reverse :: tokensFrom [] rest)
    else tokensFrom (ch :: cur) rest

/-- The tokens of a message: split at every run of whitespace, none empty (30_encoding.md R89). -/
def tokens (msg : List Char) : List (List Char) := tokensFrom [] msg

/-- The value of one hex digit of either case (30_encoding.md R91). -/
def hexDigitValue (ch : Char) : Option Nat :=
  if 0x30 ≤ ch.toNat ∧ ch.toNat ≤ 0x39 then some (ch.toNat - 0x30)
  else if 0x41 ≤ ch.toNat ∧ ch.toNat ≤ 0x46 then some (ch.toNat - 0x41 + 10)
  else if 0x61 ≤ ch.toNat ∧ ch.toNat ≤ 0x66 then some (ch.toNat - 0x61 + 10)
  else none

/-- The number that hex digits spell after `acc`, most significant first; `none` if a character is no
hex digit (30_encoding.md R91). -/
def hexNumberFrom (acc : Nat) : List Char → Option Nat
  | [] => some acc
  | ch :: rest =>
    match hexDigitValue ch with
    | some d => hexNumberFrom (acc * 16 + d) rest
    | none => none

/-- A token without its optional prefix `0x` or `0X` (30_encoding.md R91). -/
def dropHexMark : List Char → List Char
  | '0' :: 'x' :: rest => rest
  | '0' :: 'X' :: rest => rest
  | tok => tok

/-- The value of a hex byte: optional prefix, one or more hex digits, at most `0xFF`
(30_encoding.md R91). -/
def hexByte (tok : List Char) : Option Byte :=
  match dropHexMark tok with
  | [] => none
  | ch :: rest =>
    match hexNumberFrom 0 (ch :: rest) with
    | some n => if n ≤ 0xFF then some (BitVec.ofNat 8 n) else none
    | none => none

/-- The keywords, upper case only (30_encoding.md R90). -/
def kwStart : List Char := "START".toList
/-- Keyword `WRITE` (30_encoding.md R90). -/
def kwWrite : List Char := "WRITE".toList
/-- Keyword `READ` (30_encoding.md R90). -/
def kwRead : List Char := "READ".toList
/-- Keyword `ACK` (30_encoding.md R90). -/
def kwAck : List Char := "ACK".toList
/-- Keyword `NACK` (30_encoding.md R90). -/
def kwNack : List Char := "NACK".toList
/-- Keyword `STOP` (30_encoding.md R90). -/
def kwStop : List Char := "STOP".toList
/-- Keyword `READ_BYTE` (30_encoding.md R90). -/
def kwReadByte : List Char := "READ_BYTE".toList
/-- Keyword `WRITE_BYTE` (30_encoding.md R90). -/
def kwWriteByte : List Char := "WRITE_BYTE".toList

/-- The last two rows of the token table: which port a malformed message is charged to
(30_encoding.md R92). -/
def malformedTokens : List (List Char) → Instr
  | [] => .busMalformed
  | t :: _ => if t = kwReadByte ∨ t = kwWriteByte then .regUnrecognized else .busMalformed

/-- From tokens to a command (30_encoding.md R92). -/
def decodeTokens (ts : List (List Char)) : Instr :=
  match ts with
  | [t] =>
    if t = kwAck then .ack
    else if t = kwStop then .stop
    else match hexByte t with
      | some h => .byte h
      | none => malformedTokens ts
  | [t, u] =>
    if t = kwNack ∧ u = kwStop then .nackStop
    else if t = kwReadByte then
      match hexByte u with
      | some h => .readByte h
      | none => malformedTokens ts
    else malformedTokens ts
  | [t, u, v] =>
    if t = kwStart ∧ v = kwWrite then
      match hexByte u with
      | some h => .startW h
      | none => malformedTokens ts
    else if t = kwStart ∧ v = kwRead then
      match hexByte u with
      | some h => .startR h
      | none => malformedTokens ts
    else if t = kwWriteByte then
      match hexByte u, hexByte v with
      | some h1, some h2 => .writeByte h1 h2
      | _, _ => malformedTokens ts
    else malformedTokens ts
  | _ => malformedTokens ts

/-- The command a text message stands for (30_encoding.md R89 to R92). -/
def decodeText (msg : List Char) : Instr := decodeTokens (tokens msg)

/-- One upper-case hex digit (30_encoding.md R94). -/
def hexDigitChar (d : Nat) : Char :=
  if d < 10 then Char.ofNat (0x30 + d) else Char.ofNat (0x41 + (d - 10))

/-- A byte as exactly two upper-case hex digits (30_encoding.md R94). -/
def hexText (b : Byte) : List Char :=
  [hexDigitChar (b.toNat / 16), hexDigitChar (b.toNat % 16)]

/-- A command as text, in the spellings of 30_encoding.md R92 and R97. The two malformed commands have
many texts; the model writes `HELLO` (40_bus_protocol.md R130) and `READ_BYTE` alone
(41_register_access.md R165) (DESIGN CHOICE, safe; log 15). -/
def encodeText : Instr → List Char
  | .startW a => kwStart ++ ' ' :: hexText a ++ ' ' :: kwWrite
  | .startR a => kwStart ++ ' ' :: hexText a ++ ' ' :: kwRead
  | .byte b => hexText b
  | .ack => kwAck
  | .nackStop => kwNack ++ ' ' :: kwStop
  | .stop => kwStop
  | .busMalformed => "HELLO".toList
  | .readByte r => kwReadByte ++ ' ' :: hexText r
  | .writeByte r v => kwWriteByte ++ ' ' :: hexText r ++ ' ' :: hexText v
  | .regUnrecognized => kwReadByte

end Sys2Proof
end

