-- ==== Sys2Proof/Machine/Fetch.lean ====
section
/-! DEFINITION. Taking the next input from the environment. Commands arrive from outside one at a time
and are never stored in the block (20_memory.md R52, R66). -/

namespace Sys2Proof.Machine

open Sys2Proof

/-- What the environment presents to a step. -/
inductive Fetched
  /-- No input. -/
  | nothing
  /-- The reset event, and the state with that input taken. -/
  | reset (s : State)
  /-- A command, and the state with that input taken and `now` the command's time. -/
  | command (i : Instr) (s : State)
  deriving DecidableEq, Repr

/-- The next input, decoded without looking at the state (30_encoding.md R96). -/
def fetch (s : State) : Fetched :=
  match s.inbox with
  | [] => .nothing
  | .reset :: rest => .reset { s with inbox := rest }
  | .command now w :: rest => .command (decode w) { s with inbox := rest, now := now }

/-- The state with one more command, the next to be taken, presented at the current time. -/
def presentWord (s : State) (w : CmdWord) : State :=
  { s with inbox := .command s.now w :: s.inbox }

end Sys2Proof.Machine
end

