-- ==== Sys2Proof/WellFormed.lean ====
section
/-! DEFINITION. Well-formed configurations: the checks (a) to (h) of 00_scope.md R11, and the one
check that a PTR_WIDTH other than 8 adds (log 11). Every command is well-formed by its type: its
operands are bytes (30_encoding.md R80), and every 20-bit word decodes to a command (R85). -/

namespace Sys2Proof

/-- A component is a finite rational (00_scope.md R11(a), R17). -/
def Ratio.finite (q : Ratio) : Bool := q.den != 0

/-- R11(a): DATASET_LEN >= 1 and every component of every sample is a finite rational. -/
def Config.datasetOk (c : Config) : Bool :=
  !c.dataset.isEmpty && c.dataset.all (fun s => s.x.finite && s.y.finite && s.z.finite)

/-- R11(b): ODR_TICKS >= 1. -/
def Config.odrOk (c : Config) : Bool := decide (1 ≤ c.odrTicks)

/-- Every mapped address, with repetitions (00_scope.md R11(c)). -/
def Config.mappedAddrs (c : Config) : List Byte :=
  c.configRegs.map Prod.fst ++
    [c.addrStatus, c.addrData.xHigh, c.addrData.xLow, c.addrData.yHigh, c.addrData.yLow,
      c.addrData.zHigh, c.addrData.zLow]

/-- R11(c): the mapped addresses are pairwise different. -/
def Config.addrsDistinct (c : Config) : Bool := decide c.mappedAddrs.Nodup

/-- R11(d): ADDR_PWR_MGMT occurs in CONFIG_REGS. -/
def Config.pwrMgmtListed (c : Config) : Bool :=
  c.configRegs.any (fun p => p.1 == c.addrPwrMgmt)

/-- R11(e) for one axis: the low byte's address is the high byte's plus one, without wrapping. -/
def Config.axisOk (high low : Byte) : Bool :=
  low.toNat == high.toNat + 1 && decide (high.toNat ≤ 0xFE)

/-- R11(e): each axis occupies two consecutive registers. -/
def Config.axesOk (c : Config) : Bool :=
  Config.axisOk c.addrData.xHigh c.addrData.xLow && Config.axisOk c.addrData.yHigh c.addrData.yLow &&
    Config.axisOk c.addrData.zHigh c.addrData.zLow

/-- R11(f): MODE_LOW_NOISE != MODE_DISABLED and 0 <= MODE_LSB <= 6. -/
def Config.modeOk (c : Config) : Bool :=
  c.modeLowNoise != c.modeDisabled && decide (c.modeLsb ≤ 6)

/-- R11(g): the mode field of the reset value of the power-management register is MODE_DISABLED. -/
def Config.resetModeOk (c : Config) : Bool :=
  Machine.modeField c (Machine.resetByte c c.addrPwrMgmt.toNat) == c.modeDisabled

/-- DEDUCED (safe; log 11): a pointer holds every byte that BYTE can select (40_bus_protocol.md R124). -/
def Config.ptrWidthOk (c : Config) : Bool := decide (8 ≤ c.ptrWidth)

/-- A well-formed configuration (00_scope.md R11; item (h) holds by the type of `devAddr`). -/
def Config.wf (c : Config) : Bool :=
  c.datasetOk && c.odrOk && c.addrsDistinct && c.pwrMgmtListed && c.axesOk && c.modeOk &&
    c.resetModeOk && c.ptrWidthOk

end Sys2Proof
end

