-- ==== Sys2Proof/Machine/Step.lean ====
section
/-! DEFINITION. The step of the machine. -/

namespace Sys2Proof.Machine

open Sys2Proof

/-- One step: an ill-formed configuration is refused (00_scope.md R11); otherwise the environment's next
input is taken: a command (00_scope.md R15), the reset event (70_reset_and_hazards.md R260), or nothing. -/
def step (s : State) : Host.Outcome State Fault Refusal :=
  if s.config.wf then
    match fetch s with
    | .nothing => idleStep s
    | .reset t => .next (resetEvent t)
    | .command i t => exec i t
  else .refused .illFormedConfig

/-- The state in which the next command to be taken is the one whose word is the low 20 bits of the
`nbits` bits of `w`, presented at the current time (log 16). -/
def State.withFetchWord (s : State) (nbits w : Nat) : State :=
  presentWord s (BitVec.ofNat 20 (w % 2 ^ nbits))

end Sys2Proof.Machine
end

