-- ==== Sys2Proof/Machine/Response.lean ====
section
/-! DEFINITION. The binary and text forms of a response (30_encoding.md R87, R94). -/

namespace Sys2Proof.Machine

open Sys2Proof

/-- CODE and DATA of a response (30_encoding.md R87). -/
def rspWord : Rsp → RspWord
  | .ack => 0x1#4 ++ 0x00#8
  | .ackData b => 0x2#4 ++ b
  | .eot => 0x3#4 ++ 0x00#8
  | .perr => 0x4#4 ++ 0x00#8
  | .rdData b => 0x8#4 ++ b
  | .success => 0x9#4 ++ 0x00#8
  | .cmdError => 0xA#4 ++ 0x00#8
  | .fatal => 0xF#4 ++ 0x00#8

/-- The reply text, informative; a fatal outcome has none (30_encoding.md R94). -/
def rspText : Rsp → Option (List Char)
  | .ack => some "ACK".toList
  | .ackData b => some ("ACK ".toList ++ hexText b)
  | .eot => some "EOT".toList
  | .perr => some "ERROR: protocol violation".toList
  | .rdData b => some ("0x".toList ++ hexText b)
  | .success => some "SUCCESS".toList
  | .cmdError => some "ERROR: unrecognized command".toList
  | .fatal => none

/-- The responses only a bus-port command gives (30_encoding.md R86). -/
def rspOfBusPort : Rsp → Bool
  | .ack => true
  | .ackData _ => true
  | .eot => true
  | .perr => true
  | .rdData _ => false
  | .success => false
  | .cmdError => false
  | .fatal => false

/-- The responses only a register-port command gives (30_encoding.md R86). -/
def rspOfRegisterPort : Rsp → Bool
  | .ack => false
  | .ackData _ => false
  | .eot => false
  | .perr => false
  | .rdData _ => true
  | .success => true
  | .cmdError => true
  | .fatal => false

end Sys2Proof.Machine
end

