-- ==== Sys2Proof/Safety.lean ====
section
/-! DEFINITION. The terms claims are stated in: what a good state is, which register a command accesses,
sequences of commands. -/

namespace Sys2Proof.Machine

open Sys2Proof

/-! ## Good states -/

/-- The session invariant: exactly one row of the table of 10_state.md R24 holds (the rows exclude each
other by `fsm`). -/
abbrev SessionInv (s : State) : Prop :=
  (s.fsm = .idle ∧ s.ptr = none ∧ s.dir = none) ∨
  (s.fsm = .registerSelect ∧ s.ptr = none ∧ s.dir = some .write) ∨
  (s.fsm = .writeActive ∧ s.ptr.isSome = true ∧ s.dir = some .write) ∨
  (s.fsm = .readActive ∧ s.ptr.isSome = true ∧ s.dir = some .read)

/-- The configuration registers' memory is in canonical form and lists only addresses of CONFIG_REGS
(10_state.md R42; log 10). -/
abbrev CfgInv (s : State) : Prop :=
  Memory.wf (resetByte s.config) s.cfg = true ∧
    s.cfg.all (fun cell => isConfigAddr s.config cell.1) = true

/-- The pointer fits its width (10_state.md R22, R25). -/
abbrev PtrInv (s : State) : Prop := ∀ p ∈ s.ptr, p < 2 ^ s.config.ptrWidth

/-- The dataset position is in range (10_state.md R20, R33). -/
abbrev IdxInv (s : State) : Prop := s.idx < s.config.dataset.length

/-- The mode code PWR_MGMT holds (10_state.md R35). -/
def storedMode (s : State) : BitVec 2 :=
  modeField s.config (s.cfgByte s.config.addrPwrMgmt.toNat)

/-- The power state and the stored mode code agree: while the block runs, acquisition is on exactly when
the stored code is MODE_LOW_NOISE and off exactly when it is MODE_DISABLED (60_exceptions.md R235); in the
halted block the stored code is the offending one (41_register_access.md R167). -/
abbrev PowerInv (s : State) : Prop :=
  if s.fatal then unsupportedMode s.config (storedMode s) = true
  else storedMode s = (if enabled s then s.config.modeLowNoise else s.config.modeDisabled)

/-- A good state of the block. -/
abbrev GoodState (s : State) : Prop :=
  s.config.wf = true ∧ SessionInv s ∧ CfgInv s ∧ PtrInv s ∧ IdxInv s ∧ PowerInv s

/-- A safe state of a run: a good one in which the block is not halted (60_exceptions.md R226). -/
abbrev SafeState (s : State) : Prop := GoodState s ∧ s.fatal = false

/-- The environment keeps its obligation from time `now` on: times never decrease
(00_scope.md R16; 70_reset_and_hazards.md R277). -/
def timesRise (now : Time) : List Input → Bool
  | [] => true
  | .reset :: rest => timesRise now rest
  | .command t _ :: rest => decide (now ≤ t) && timesRise t rest

/-! ## Which register a command accesses (20_memory.md R53) -/

/-- The address a command reads, if it is accepted and reads one. -/
def readTarget (i : Instr) (s : State) : Option Nat :=
  match i with
  | .startW _ => none
  | .startR a => if s.fsm = .writeActive ∧ a = s.config.devAddr then s.ptr else none
  | .byte _ => none
  | .ack => if s.fsm = .readActive then s.ptr else none
  | .nackStop => none
  | .stop => none
  | .busMalformed => none
  | .readByte r => some r.toNat
  | .writeByte _ _ => none
  | .regUnrecognized => none

/-- The address a command writes and the byte it writes there, if it is accepted and writes one. -/
def writeTarget (i : Instr) (s : State) : Option (Nat × Byte) :=
  match i with
  | .startW _ => none
  | .startR _ => none
  | .byte b =>
    if s.fsm = .writeActive ∧ s.config.writePathEn = true then s.ptr.map (fun p => (p, b)) else none
  | .ack => none
  | .nackStop => none
  | .stop => none
  | .busMalformed => none
  | .readByte _ => none
  | .writeByte r v => some (r.toNat, v)
  | .regUnrecognized => none

/-- The cells of the table of 40_bus_protocol.md R131 that say *accept*. A register-port command is no
row of that table; it is always accepted. -/
def accepted (i : Instr) (s : State) : Bool :=
  match i with
  | .startW a => decide (s.fsm = .idle ∧ a = s.config.devAddr)
  | .startR a => decide (s.fsm = .writeActive ∧ a = s.config.devAddr)
  | .byte _ =>
    decide (s.fsm = .registerSelect ∨ (s.fsm = .writeActive ∧ s.config.writePathEn = true))
  | .ack => decide (s.fsm = .readActive)
  | .nackStop => decide (s.fsm = .readActive)
  | .stop => decide (s.fsm = .writeActive ∧ s.config.writePathEn = true)
  | .busMalformed => false
  | .readByte _ => true
  | .writeByte _ _ => true
  | .regUnrecognized => true

/-! ## Outcomes and sequences -/

/-- Apply a function to the next state of an outcome. -/
def mapNext (f : State → State) : Result → Result
  | .next t => .next (f t)
  | .fault r => .fault r
  | .refused r => .refused r

/-- The commands `cs`, each at its own time: the state after them, if `ok` holds of every one of them
where it stands and every one of them has a next state. -/
def execWhile (ok : Instr → State → Bool) : List (Time × Instr) → State → Option State
  | [], s => some s
  | (t, i) :: rest, s =>
    if ok i { s with now := t } then
      match exec i { s with now := t } with
      | .next u => execWhile ok rest u
      | .fault _ => none
      | .refused _ => none
    else none

/-- The command does not write the register at `a`. -/
def sparesRegister (a : Nat) (i : Instr) (s : State) : Bool :=
  decide ((writeTarget i s).map Prod.fst ≠ some a)

/-- The command does not read the register at `a`. -/
def leavesUnread (a : Nat) (i : Instr) (s : State) : Bool :=
  decide (readTarget i s ≠ some a)

/-- Repeated readiness checks at one time: how the `k` checks answer, and the state after
(42_acquisition.md R202). -/
def repeatCheck (now : Time) : Nat → State → List Bool × State
  | 0, s => ([], s)
  | k + 1, s =>
    let r := isNewDataReady now s
    let rest := repeatCheck now k r.2
    (r.1 :: rest.1, rest.2)

/-- Repeated pulls (42_acquisition.md R196). -/
def repeatPull : Nat → State → State
  | 0, s => s
  | k + 1, s => pull (repeatPull k s)

/-- Register reads one after another at rising addresses from `p`, each at its own time: the bytes read
and the state after (40_bus_protocol.md R135). -/
def readSequence : List Time → Nat → State → List Byte × State
  | [], _, s => ([], s)
  | t :: ts, p, s =>
    let r := regRead p t s
    let rest := readSequence ts (nextPtr s.config p) r.2
    (r.1 :: rest.1, rest.2)

/-- Accepted ACKs one after another, each at its own time: the bytes of the responses, and the state
after, if each of them answers ACK_DATA (40_bus_protocol.md R126, R135). -/
def ackBurst : List Time → State → Option (List Byte × State)
  | [], s => some ([], s)
  | t :: ts, s =>
    match exec .ack { s with now := t } with
    | .next u =>
      match u.rsp with
      | some (.ackData v) => (ackBurst ts u).map (fun r => (v :: r.1, r.2))
      | _ => none
    | .fault _ => none
    | .refused _ => none

end Sys2Proof.Machine
end

