-- ==== Sys2Proof/Certificates/Slice0/Obligations.lean ====
section
/-! DEFINITION. The statements for the provers. A statement whose conclusion is an equation
`exec … s = .next { s with … }` names every field that changes: every field not named, every byte of
`cfg` among them, is unchanged. -/

open Sys2Proof Sys2Proof.Machine

/-! ## Encoding -/

/-- Decoding the word of a command gives the command back, for every operand (30_encoding.md R81, R83).
The words of the two catch-all commands are the model's choice (log 15). -/
def Obligations.DecodeOfEncode : Prop :=
  ∀ i : Instr, decode (encode i) = i

/-- A word that decodes to one of the eight named commands is that command's one word: no other word is
read as it (30_encoding.md R83, R85). -/
def Obligations.NamedCommandHasOneWord : Prop :=
  ∀ w : CmdWord, (decode w).named = true → encode (decode w) = w

/-- The first matching row of masks and patterns is what the fields OP, A and B say
(30_encoding.md R81, R83). -/
def Obligations.DecodeReadsFields : Prop :=
  ∀ w : CmdWord, decode w =
    if opField w = 0x1#4 ∧ bField w = 0x00#8 then .startW (aField w)
    else if opField w = 0x2#4 ∧ bField w = 0x00#8 then .startR (aField w)
    else if opField w = 0x3#4 ∧ bField w = 0x00#8 then .byte (aField w)
    else if opField w = 0x4#4 ∧ aField w = 0x00#8 ∧ bField w = 0x00#8 then .ack
    else if opField w = 0x5#4 ∧ aField w = 0x00#8 ∧ bField w = 0x00#8 then .nackStop
    else if opField w = 0x6#4 ∧ aField w = 0x00#8 ∧ bField w = 0x00#8 then .stop
    else if opField w = 0x8#4 ∧ bField w = 0x00#8 then .readByte (aField w)
    else if opField w = 0x9#4 then .writeByte (aField w) (bField w)
    else if w.getLsbD 19 = false then .busMalformed
    else .regUnrecognized

/-- The reserved words and what they do (30_encoding.md R85): exactly these words of the bus port are
BUS_MALFORMED, a protocol error in every state, and exactly these of the register port are
REG_UNRECOGNIZED, a command error. -/
def Obligations.ReservedWordsAreErrors : Prop :=
  ∀ w : CmdWord,
    (decode w = .busMalformed ↔
      opField w = 0x0#4 ∨ opField w = 0x7#4 ∨
        ((opField w = 0x1#4 ∨ opField w = 0x2#4 ∨ opField w = 0x3#4) ∧ bField w ≠ 0x00#8) ∨
        ((opField w = 0x4#4 ∨ opField w = 0x5#4 ∨ opField w = 0x6#4) ∧
          ¬(aField w = 0x00#8 ∧ bField w = 0x00#8))) ∧
    (decode w = .regUnrecognized ↔
      0xA ≤ (opField w).toNat ∨ (opField w = 0x8#4 ∧ bField w ≠ 0x00#8)) ∧
    ∀ s : State, s.fatal = false →
      (decode w = .busMalformed → exec (decode w) s =
        .next { s with fsm := .idle, ptr := none, dir := none, rsp := some .perr }) ∧
      (decode w = .regUnrecognized → exec (decode w) s = .next { s with rsp := some .cmdError })

/-- Words of 95_test_vectors.md part 2.4, one for every row of the opcode map, decode to their commands. -/
def Obligations.VectorWordsDecode : Prop :=
  decode 0x16800#20 = .startW 0x68#8 ∧ decode 0x26800#20 = .startR 0x68#8 ∧
    decode 0x3AB00#20 = .byte 0xAB#8 ∧ decode 0x40000#20 = .ack ∧ decode 0x50000#20 = .nackStop ∧
    decode 0x60000#20 = .stop ∧ decode 0x83900#20 = .readByte 0x39#8 ∧
    decode 0x91F03#20 = .writeByte 0x1F#8 0x03#8 ∧ decode 0x40001#20 = .busMalformed ∧
    decode 0x83901#20 = .regUnrecognized

/-- The text of a command is read back as the command, for every operand (30_encoding.md R92, R97).
The texts of the two malformed commands are the model's choice (log 15). -/
def Obligations.TextOfCommandReadsBack : Prop :=
  ∀ i : Instr, decodeText (encodeText i) = i

/-- The response words (30_encoding.md R87): CODE in bits 11 to 8, DATA in bits 7 to 0, and different
responses have different words. -/
def Obligations.ResponseWordsOfTable : Prop :=
  rspWord .ack = 0x100#12 ∧ rspWord .eot = 0x300#12 ∧ rspWord .perr = 0x400#12 ∧
    rspWord .success = 0x900#12 ∧ rspWord .cmdError = 0xA00#12 ∧ rspWord .fatal = 0xF00#12 ∧
    (∀ b : Byte, (rspWord (.ackData b)).toNat = 0x200 + b.toNat) ∧
    (∀ b : Byte, (rspWord (.rdData b)).toNat = 0x800 + b.toNat) ∧
    ∀ r r' : Rsp, rspWord r = rspWord r' → r = r'

/-! ## The step -/

/-- A step runs the decoded command (00_scope.md R15; 30_encoding.md R96): with a well-formed
configuration and a command word next in the environment's queue, `step` is `exec` of the decoded word at
the state with that input taken and `now` its time. The queue and the field `now` are the model's form of
the environment (logs 2 and 3). -/
def Obligations.StepRunsDecodedCommand : Prop :=
  ∀ (s : State) (t : Time) (w : CmdWord) (rest : List Input), s.config.wf = true →
    s.inbox = .command t w :: rest →
    step s = exec (decode w) { s with inbox := rest, now := t }

/-- The reset event (70_reset_and_hazards.md R260): it may occur in any state, halted or not, and puts
every field at its reset value; nothing of the block survives. -/
def Obligations.ResetEventRestoresEverything : Prop :=
  ∀ (s : State) (rest : List Input), s.config.wf = true → s.inbox = .reset :: rest →
    ∃ t, step s = .next t ∧ t.fsm = .idle ∧ t.ptr = none ∧ t.dir = none ∧
      (∀ p ∈ s.config.configRegs, t.cfgByte p.1.toNat = p.2) ∧
      (∀ k, perDataGet t.data k = s.config.dataReset) ∧ t.last = none ∧ t.idx = 0 ∧
      t.fatal = false ∧ t.config = s.config

/-- The model's choice (notes/assumptions/6.md): with no input a running block waits, nothing changes but
that there is no response. -/
def Obligations.StepWaitsWithoutInput : Prop :=
  ∀ s : State, s.config.wf = true → s.inbox = [] → s.fatal = false →
    step s = .next { s with rsp := none }

/-- The well-formed configurations are those of 00_scope.md R11 (with the pointer width of R9), and a step
under any other configuration is refused. -/
def Obligations.OnlyWellFormedConfigsRun : Prop :=
  (∀ c : Config, c.ptrWidth = 8 →
    (c.wf = true ↔
      (1 ≤ c.dataset.length ∧
        ∀ p ∈ c.dataset, p.x.den ≠ 0 ∧ p.y.den ≠ 0 ∧ p.z.den ≠ 0) ∧
      1 ≤ c.odrTicks ∧
      (c.configRegs.map Prod.fst ++ [c.addrStatus, c.addrData.xHigh, c.addrData.xLow,
        c.addrData.yHigh, c.addrData.yLow, c.addrData.zHigh, c.addrData.zLow]).Nodup ∧
      (∃ v, (c.addrPwrMgmt, v) ∈ c.configRegs) ∧
      (c.addrData.xLow.toNat = c.addrData.xHigh.toNat + 1 ∧ c.addrData.xHigh.toNat ≤ 0xFE ∧
        c.addrData.yLow.toNat = c.addrData.yHigh.toNat + 1 ∧ c.addrData.yHigh.toNat ≤ 0xFE ∧
        c.addrData.zLow.toNat = c.addrData.zHigh.toNat + 1 ∧ c.addrData.zHigh.toNat ≤ 0xFE) ∧
      (c.modeLowNoise ≠ c.modeDisabled ∧ c.modeLsb ≤ 6) ∧
      (∀ v, (c.addrPwrMgmt, v) ∈ c.configRegs →
        v.toNat / 2 ^ c.modeLsb % 4 = c.modeDisabled.toNat) ∧
      c.devAddr.toNat ≤ 0xFF)) ∧
  ∀ s : State, s.config.wf = false → step s = .refused .illFormedConfig

/-- A running block in a state of the session invariant has a next state for every command, and a halted
block has none for any (00_scope.md R15). -/
def Obligations.ExecDefinedExactlyWhenRunning : Prop :=
  ∀ (i : Instr) (s : State), SessionInv s → ((∃ t, exec i s = .next t) ↔ s.fatal = false)

/-- The halted block (60_exceptions.md R226): no command has a step, and the only step that leaves the
halted state is the reset event. -/
def Obligations.OnlyResetLeavesHaltedState : Prop :=
  ∀ s : State, s.fatal = true →
    (∀ i, exec i s = .fault .halted) ∧
    ∀ t, step s = .next t → t.fatal = false ∧ ∃ rest, s.inbox = .reset :: rest

/-- The state right after reset, under any well-formed configuration (10_state.md R41): every field, and
what STATUS and an unmapped address read then; and R41's two bytes of the configuration REFCFG. Which
configuration `State.reset` has is no part of it. -/
def Obligations.ResetValues : Prop :=
  (State.ofConfig Config.reference).cfgByte 0x1F = 0x00#8 ∧
  (State.ofConfig Config.reference).cfgByte 0x21 = 0x06#8 ∧
  ∀ c : Config, c.wf = true →
    let s := State.ofConfig c
    s.fsm = .idle ∧ s.ptr = none ∧ s.dir = none ∧
      (∀ p ∈ c.configRegs, s.cfgByte p.1.toNat = p.2) ∧
      (∀ k, perDataGet s.data k = c.dataReset) ∧ s.last = none ∧ s.idx = 0 ∧ s.fatal = false ∧
      (∀ now, regRead c.addrStatus.toNat now s = (0x00#8, s)) ∧
      (∀ a now, category c a = .unmapped → regRead a now s = (0xAB#8, s))

/-! ## The bus port, command by command -/

/-- START_W (40_bus_protocol.md R123), in every state, with every address; its word and text. -/
def Obligations.StartWOpensOnlyFromIdle : Prop :=
  ∀ (a : Byte) (s : State), s.fatal = false →
    (exec (.startW a) s = .next
      (if s.fsm = .idle ∧ a = s.config.devAddr then
        { s with fsm := .registerSelect, dir := some .write, rsp := some .ack }
      else { s with fsm := .idle, ptr := none, dir := none, rsp := some .perr })) ∧
    decode (0x1#4 ++ a ++ 0x00#8) = .startW a ∧
    decodeText ("START ".toList ++ hexText a ++ " WRITE".toList) = .startW a

/-- BYTE in REGISTER_SELECT (40_bus_protocol.md R124): every byte is selected and no register is accessed;
in IDLE and READ_ACTIVE it is a protocol error; its word and text. -/
def Obligations.ByteSelectsRegister : Prop :=
  ∀ (b : Byte) (s : State), s.fatal = false →
    (s.fsm = .registerSelect → exec (.byte b) s =
      .next { s with ptr := some b.toNat, fsm := .writeActive, rsp := some .ack }) ∧
    (s.fsm = .idle ∨ s.fsm = .readActive → exec (.byte b) s =
      .next { s with fsm := .idle, ptr := none, dir := none, rsp := some .perr }) ∧
    decode (0x3#4 ++ b ++ 0x00#8) = .byte b ∧ decodeText (hexText b) = .byte b

/-- BYTE in WRITE_ACTIVE (40_bus_protocol.md R128): with WRITE_PATH_EN = 1 the register at the pointer is
written and the pointer advances, unless the write is fatal; with 0 it is a protocol error. -/
def Obligations.ByteWritesAtPointer : Prop :=
  ∀ (b : Byte) (s : State) (p : Nat), s.fatal = false → s.fsm = .writeActive → s.ptr = some p →
    exec (.byte b) s = .next
      (if s.config.writePathEn = true then
        (if (regWrite p b s.now s).fatal = true then
          { regWrite p b s.now s with
            fsm := .writeActive, ptr := some p, dir := s.dir, rsp := some .fatal }
        else
          { regWrite p b s.now s with
            fsm := .writeActive, ptr := some ((p + 1) % 2 ^ s.config.ptrWidth), dir := s.dir
            rsp := some .ack })
      else { s with fsm := .idle, ptr := none, dir := none, rsp := some .perr })

/-- START_R (40_bus_protocol.md R125): in WRITE_ACTIVE with the device's address it turns the session to
reading and reads the register at the pointer; anything else is a protocol error that reads none; its
word and text. -/
def Obligations.StartRReadsFirstByte : Prop :=
  ∀ (a : Byte) (s : State), s.fatal = false →
    (∀ p, s.fsm = .writeActive → a = s.config.devAddr → s.ptr = some p →
      exec (.startR a) s = .next
        { (regRead p s.now s).2 with
          fsm := .readActive, dir := some .read, ptr := some ((p + 1) % 2 ^ s.config.ptrWidth)
          rsp := some (.ackData (regRead p s.now s).1) }) ∧
    (¬(s.fsm = .writeActive ∧ a = s.config.devAddr) → exec (.startR a) s =
      .next { s with fsm := .idle, ptr := none, dir := none, rsp := some .perr }) ∧
    decode (0x2#4 ++ a ++ 0x00#8) = .startR a ∧
    decodeText ("START ".toList ++ hexText a ++ " READ".toList) = .startR a

/-- ACK (40_bus_protocol.md R126): in READ_ACTIVE the next byte, else a protocol error; its word and text. -/
def Obligations.AckReadsNextByte : Prop :=
  ∀ s : State, s.fatal = false →
    (∀ p, s.fsm = .readActive → s.ptr = some p →
      exec .ack s = .next
        { (regRead p s.now s).2 with
          fsm := .readActive, dir := s.dir, ptr := some ((p + 1) % 2 ^ s.config.ptrWidth)
          rsp := some (.ackData (regRead p s.now s).1) }) ∧
    (s.fsm ≠ .readActive → exec .ack s =
      .next { s with fsm := .idle, ptr := none, dir := none, rsp := some .perr }) ∧
    decode 0x40000#20 = .ack ∧ decodeText "ACK".toList = .ack

/-- NACK_STOP (40_bus_protocol.md R127): it ends a read and reads nothing, else a protocol error; its
word and text. -/
def Obligations.NackStopEndsRead : Prop :=
  ∀ s : State, s.fatal = false →
    exec .nackStop s = .next
      { s with fsm := .idle, ptr := none, dir := none
               rsp := some (if s.fsm = .readActive then .eot else .perr) } ∧
    decode 0x50000#20 = .nackStop ∧ decodeText "NACK STOP".toList = .nackStop

/-- STOP (40_bus_protocol.md R129): it ends a write only with WRITE_PATH_EN = 1, else a protocol error;
its word and text. -/
def Obligations.StopEndsWriteOnlyIfEnabled : Prop :=
  ∀ s : State, s.fatal = false →
    exec .stop s = .next
      { s with fsm := .idle, ptr := none, dir := none
               rsp := some (if s.fsm = .writeActive ∧ s.config.writePathEn = true then .eot
                 else .perr) } ∧
    decode 0x60000#20 = .stop ∧ decodeText "STOP".toList = .stop

/-- BUS_MALFORMED (40_bus_protocol.md R130): `Abort` in every state. -/
def Obligations.BusMalformedAborts : Prop :=
  ∀ s : State, s.fatal = false →
    exec .busMalformed s =
      .next { s with fsm := .idle, ptr := none, dir := none, rsp := some .perr } ∧
    decode 0x00000#20 = .busMalformed ∧ decodeText "HELLO".toList = .busMalformed

/-- The table of 40_bus_protocol.md R131: a bus command whose cell does not say *accept* runs `Abort`, one
whose cell does is not answered PERR. -/
def Obligations.AbortExactlyOutsideTable : Prop :=
  ∀ (i : Instr) (s : State), i.onRegisterPort = false → s.fatal = false →
    (accepted i s = false → exec i s =
      .next { s with fsm := .idle, ptr := none, dir := none, rsp := some .perr }) ∧
    (accepted i s = true → ∀ t, exec i s = .next t → t.rsp ≠ some .perr)

/-- The transitions of `fsm` by bus commands are exactly those of 40_bus_protocol.md R138: no command makes
another, and each is made by some command in some good state. -/
def Obligations.FsmTransitionsOfTable : Prop :=
  ∀ x y : Fsm,
    (∃ (i : Instr) (s t : State), i.onRegisterPort = false ∧ GoodState s ∧ exec i s = .next t ∧
      s.fsm = x ∧ t.fsm = y) ↔
    (x, y) = (.idle, .registerSelect) ∨ (x, y) = (.registerSelect, .writeActive) ∨
      (x, y) = (.writeActive, .writeActive) ∨ (x, y) = (.writeActive, .readActive) ∨
      (x, y) = (.readActive, .readActive) ∨ y = .idle

/-- Nothing of a session outlives it (40_bus_protocol.md R136): after PERR or EOT the session's fields are
those of reset and every other field is unchanged; a START_R from IDLE is a protocol error. -/
def Obligations.NothingOutlivesSession : Prop :=
  (∀ (i : Instr) (s t : State), exec i s = .next t →
    t.rsp = some .perr ∨ t.rsp = some .eot →
    t = { s with fsm := State.reset.fsm, ptr := State.reset.ptr, dir := State.reset.dir
                 rsp := t.rsp }) ∧
  ∀ (a : Byte) (s t : State), s.fsm = .idle → exec (.startR a) s = .next t → t.rsp = some .perr

/-- The pointer after each command (10_state.md R25; 40_bus_protocol.md R124, R128, R134): an accepted bus
read or bus write that is not fatal at `p` leaves `(p + 1) mod 2^PTR_WIDTH`; a register-port command and a
fatal write leave the pointer; every other bus command sets it from a BYTE or leaves none. -/
def Obligations.PointerAdvancesByOne : Prop :=
  ∀ (i : Instr) (s t : State), SessionInv s → exec i s = .next t →
    (∀ p, i.onRegisterPort = false → t.fatal = false →
      (readTarget i s = some p ∨ ∃ v, writeTarget i s = some (p, v)) →
      t.ptr = some ((p + 1) % 2 ^ s.config.ptrWidth)) ∧
    (i.onRegisterPort = true ∨ t.fatal = true → t.ptr = s.ptr) ∧
    (i.onRegisterPort = false → readTarget i s = none → writeTarget i s = none →
      t.ptr = none ∨ ∃ b, i = .byte b ∧ s.fsm = .registerSelect ∧ t.ptr = some b.toNat)

/-- The burst-read law (40_bus_protocol.md R135): after BYTE r in REGISTER_SELECT, START_R and the ACKs that
follow, each at its own time, return the registers at r, r + 1, … (modulo 2^PTR_WIDTH), each read taken at
the time of its own command, and leave the register file as those reads leave it. -/
def Obligations.BurstReadLaw : Prop :=
  ∀ (s : State) (r : Byte) (t0 t1 : Time) (ts : List Time),
    s.fatal = false → s.fsm = .registerSelect →
    ∃ s1 s2 s3 : State, ∃ v : Byte, ∃ vs : List Byte,
      exec (.byte r) { s with now := t0 } = .next s1 ∧
      exec (.startR s.config.devAddr) { s1 with now := t1 } = .next s2 ∧
      s2.rsp = some (.ackData v) ∧
      ackBurst ts s2 = some (vs, s3) ∧
      v :: vs = (readSequence (t1 :: ts) r.toNat s).1 ∧
      s3.fsm = .readActive ∧
      s3.ptr = some ((r.toNat + 1 + ts.length) % 2 ^ s.config.ptrWidth) ∧
      s3.cfg = (readSequence (t1 :: ts) r.toNat s).2.cfg ∧
      s3.data = (readSequence (t1 :: ts) r.toNat s).2.data ∧
      s3.last = (readSequence (t1 :: ts) r.toNat s).2.last ∧
      s3.idx = (readSequence (t1 :: ts) r.toNat s).2.idx ∧ s3.fatal = false

/-! ## The register file and the register port -/

/-- The four categories of an address, which a well-formed configuration makes disjoint
(10_state.md R26). -/
def Obligations.EveryAddressHasOneCategory : Prop :=
  ∀ (c : Config) (a : Nat), c.wf = true →
    (category c a = .config ↔ ∃ p ∈ c.configRegs, p.1.toNat = a) ∧
    (category c a = .status ↔ a = c.addrStatus.toNat) ∧
    (∀ k, category c a = .data k ↔ a = (perDataGet c.addrData k).toNat) ∧
    (category c a = .unmapped ↔
      (∀ p ∈ c.configRegs, p.1.toNat ≠ a) ∧ a ≠ c.addrStatus.toNat ∧
        ∀ k, a ≠ (perDataGet c.addrData k).toNat)

/-- `RegRead` (41_register_access.md R160), by category; only the status register's read can change the
state. -/
def Obligations.RegReadByCategory : Prop :=
  ∀ (a : Nat) (now : Time) (s : State),
    (category s.config a = .config → regRead a now s = (s.cfgByte a, s)) ∧
    (category s.config a = .status → regRead a now s =
      (if (isNewDataReady now s).1 = true then 0x01#8 else 0x00#8, (isNewDataReady now s).2)) ∧
    (∀ k, category s.config a = .data k → regRead a now s = (perDataGet s.data k, s)) ∧
    (category s.config a = .unmapped → regRead a now s = (0xAB#8, s))

/-- `RegWrite` (41_register_access.md R161): a configuration register takes the byte and no other does;
at ADDR_PWR_MGMT `PwrWrite` follows; a write to any other category does nothing. -/
def Obligations.RegWriteStoresOneByte : Prop :=
  ∀ (a : Nat) (v : Byte) (now : Time) (s : State), CfgInv s →
    (category s.config a ≠ .config → regWrite a v now s = s) ∧
    (category s.config a = .config →
      ∃ u : State, { u with cfg := s.cfg } = s ∧ u.cfgByte a = v ∧
        (∀ b, b ≠ a → u.cfgByte b = s.cfgByte b) ∧
        regWrite a v now s = if a = s.config.addrPwrMgmt.toNat then pwrWrite v now u else u)

/-- `PwrWrite` (41_register_access.md R166) by the mode field of the byte written, whatever the state was
(R171, R172), with `Enable` and `Disable` (42_acquisition.md R190, R191). -/
def Obligations.PwrWriteByModeField : Prop :=
  ∀ (v : Byte) (now : Time) (s : State),
    (modeField s.config v).toNat = v.toNat / 2 ^ s.config.modeLsb % 4 ∧
    (modeField s.config v = s.config.modeLowNoise →
      pwrWrite v now s = { s with last := some now }) ∧
    (modeField s.config v ≠ s.config.modeLowNoise → modeField s.config v = s.config.modeDisabled →
      pwrWrite v now s = { s with last := none }) ∧
    (modeField s.config v ≠ s.config.modeLowNoise → modeField s.config v ≠ s.config.modeDisabled →
      pwrWrite v now s = { s with fatal := true, rsp := some .fatal })

/-- READ_BYTE (41_register_access.md R163), in every state; the session is untouched; its word and text. -/
def Obligations.ReadByteReturnsRegister : Prop :=
  ∀ (r : Byte) (s : State), s.fatal = false →
    exec (.readByte r) s = .next
      { (regRead r.toNat s.now s).2 with
        fsm := s.fsm, ptr := s.ptr, dir := s.dir
        rsp := some (.rdData (regRead r.toNat s.now s).1) } ∧
    decode (0x8#4 ++ r ++ 0x00#8) = .readByte r ∧
    decodeText ("READ_BYTE ".toList ++ hexText r) = .readByte r

/-- WRITE_BYTE (41_register_access.md R164), in every state; the session is untouched; its word and text. -/
def Obligations.WriteByteAnswersSuccessOrFatal : Prop :=
  ∀ (r v : Byte) (s : State), s.fatal = false →
    exec (.writeByte r v) s = .next
      { regWrite r.toNat v s.now s with
        fsm := s.fsm, ptr := s.ptr, dir := s.dir
        rsp := some (if (regWrite r.toNat v s.now s).fatal = true then .fatal else .success) } ∧
    decode (0x9#4 ++ r ++ v) = .writeByte r v ∧
    decodeText ("WRITE_BYTE ".toList ++ hexText r ++ ' ' :: hexText v) = .writeByte r v

/-- REG_UNRECOGNIZED (41_register_access.md R165): no state changes at all, CMD_ERROR. -/
def Obligations.RegUnrecognizedChangesNothing : Prop :=
  ∀ s : State, s.fatal = false →
    exec .regUnrecognized s = .next { s with rsp := some .cmdError } ∧
    decode 0xA0000#20 = .regUnrecognized ∧ decodeText "READ_BYTE".toList = .regUnrecognized

/-- Writes to status, data and unmapped addresses are ignored on both ports and answered as a success
(41_register_access.md R170). -/
def Obligations.ReadOnlyWritesAreIgnored : Prop :=
  ∀ (s : State) (v : Byte), s.fatal = false →
    (∀ r : Byte, category s.config r.toNat ≠ .config →
      exec (.writeByte r v) s = .next { s with rsp := some .success }) ∧
    (∀ p, category s.config p ≠ .config → s.fsm = .writeActive → s.config.writePathEn = true →
      s.ptr = some p →
      exec (.byte v) s =
        .next { s with ptr := some ((p + 1) % 2 ^ s.config.ptrWidth), rsp := some .ack })

/-- Every byte of the configuration registers but the one a command writes reads after it as before
(20_memory.md R53, R55; 10_state.md R27). -/
def Obligations.StoresOnlyAtWriteTarget : Prop :=
  ∀ (i : Instr) (s t : State) (a : Nat), exec i s = .next t →
    (∀ v, writeTarget i s ≠ some (a, v)) → t.cfgByte a = s.cfgByte a

/-- A command that accesses no register leaves the register file and the acquisition state alone; START_W,
NACK_STOP, STOP, BUS_MALFORMED and REG_UNRECOGNIZED access none in any state, BYTE none in REGISTER_SELECT,
and no command does that is not accepted (40_bus_protocol.md R137; 20_memory.md R53). -/
def Obligations.OnlyAccessesTouchRegisters : Prop :=
  ∀ (i : Instr) (s t : State), exec i s = .next t →
    (readTarget i s = none → writeTarget i s = none →
      t.cfg = s.cfg ∧ t.data = s.data ∧ t.last = s.last ∧ t.idx = s.idx ∧ t.fatal = s.fatal) ∧
    (accepted i s = false ∨ (∃ a, i = .startW a) ∨ i = .nackStop ∨ i = .stop ∨
        i = .busMalformed ∨ i = .regUnrecognized ∨ ((∃ b, i = .byte b) ∧ s.fsm = .registerSelect) →
      readTarget i s = none ∧ writeTarget i s = none)

/-- The two ports: a register-port command neither reads nor writes the session
(41_register_access.md R169): with another session it does the same to everything else. -/
def Obligations.RegisterPortIgnoresSession : Prop :=
  ∀ (i : Instr) (s : State) (f : Fsm) (p : Option Nat) (d : Option Direction),
    i.onRegisterPort = true →
    exec i { s with fsm := f, ptr := p, dir := d } =
      mapNext (fun t => { t with fsm := f, ptr := p, dir := d }) (exec i s) ∧
    ∀ t, exec i s = .next t → t.fsm = s.fsm ∧ t.ptr = s.ptr ∧ t.dir = s.dir

/-- The round-trip law (41_register_access.md R168): a byte written to a configuration register, not
fatally, is read back after any commands on either port that do not write that register. -/
def Obligations.ConfigWriteReadsBack : Prop :=
  ∀ (s u : State) (a : Nat) (v : Byte) (now now' : Time) (cs : List (Time × Instr)),
    CfgInv s → category s.config a = .config → (regWrite a v now s).fatal = false →
    execWhile (sparesRegister a) cs (regWrite a v now s) = some u →
    (regRead a now' u).1 = v

/-- Fatal (60_exceptions.md R224): its one cause is a write, through either port, of an unsupported mode
code to ADDR_PWR_MGMT; the byte has been stored, the latch is set, the response is FATAL, and nothing else
has changed. -/
def Obligations.FatalOnlyByUnsupportedMode : Prop :=
  ∀ (i : Instr) (s t : State), GoodState s → s.fatal = false → exec i s = .next t →
    (t.fatal = true ↔
      ∃ v, writeTarget i s = some (s.config.addrPwrMgmt.toNat, v) ∧
        modeField s.config v ≠ s.config.modeLowNoise ∧
        modeField s.config v ≠ s.config.modeDisabled) ∧
    ∀ v, writeTarget i s = some (s.config.addrPwrMgmt.toNat, v) → t.fatal = true →
      t.cfgByte s.config.addrPwrMgmt.toNat = v ∧
      (∀ a, a ≠ s.config.addrPwrMgmt.toNat → t.cfgByte a = s.cfgByte a) ∧
      t = { s with cfg := t.cfg, fatal := true, rsp := some .fatal }

/-- Which responses a command can give (30_encoding.md R86): exactly one, by port; FATAL only from a
write. -/
def Obligations.ResponsesByPort : Prop :=
  ∀ (i : Instr) (s t : State), exec i s = .next t →
    ∃ r, t.rsp = some r ∧
      ((i.onRegisterPort = false ∧ rspOfBusPort r = true) ∨
        (i.onRegisterPort = true ∧ rspOfRegisterPort r = true) ∨
        (r = .fatal ∧ t.fatal = true ∧ ∃ a v, writeTarget i s = some (a, v)))

/-! ## The acquisition engine -/

/-- `IsNewDataReady` (42_acquisition.md R192), with the disabled case (R200) and the strict comparison
(R201). -/
def Obligations.ReadinessCheckIsStrict : Prop :=
  ∀ (now : Time) (s : State),
    (s.last = none → isNewDataReady now s = (false, s)) ∧
    ∀ t, s.last = some t →
      (t + s.config.odrTicks < now → isNewDataReady now s =
        (true, { pull s with last := some (t + s.config.odrTicks) })) ∧
      (¬t + s.config.odrTicks < now → isNewDataReady now s = (false, s)) ∧
      (isNewDataReady (t + s.config.odrTicks) s).1 = false ∧
      (isNewDataReady (t + s.config.odrTicks + 1) s).1 = true

/-- `Pull` (42_acquisition.md R193, R195; 20_memory.md R54): the sample at `idx`, each axis high byte first,
and the index modulo the length; nothing else changes. -/
def Obligations.PullStoresBigEndianSample : Prop :=
  ∀ (s : State) (p : Sample), s.config.dataset[s.idx]? = some p →
    let d := (pull s).data
    d.xHigh ++ d.xLow = encode16 s.config p.x ∧ d.yHigh ++ d.yLow = encode16 s.config p.y ∧
      d.zHigh ++ d.zLow = encode16 s.config p.z ∧
      (pull s).idx = (s.idx + 1) % s.config.dataset.length ∧
      { pull s with data := s.data, idx := s.idx } = s

/-- `Encode16` (42_acquisition.md R194): the rounded exact product modulo 65536, as an unsigned number. -/
def Obligations.EncodeIsRoundModulo : Prop :=
  ∀ (c : Config) (v : Ratio),
    ((encode16 c v).toNat : Int) = roundRatio c.roundTies (timesInt v 16384) % 65536 ∧
    ((timesInt v 16384).num : ℚ) / ((timesInt v 16384).den : ℚ) =
      (v.num : ℚ) / (v.den : ℚ) * 16384 ∧
    encode16 c ⟨-1, 1⟩ = 0xC000#16

/-- `Round` (42_acquisition.md R197): under every tie rule an integer within 1/2; under ties-to-even the even
one of the two when the argument is exactly half-way. -/
def Obligations.RoundIsNearest : Prop :=
  ∀ q : Ratio, q.den ≠ 0 →
    (∀ ties, |(q.num : ℚ) / (q.den : ℚ) - (roundRatio ties q : ℚ)| ≤ 1 / 2) ∧
    (|(q.num : ℚ) / (q.den : ℚ) - (roundRatio .toEven q : ℚ)| = 1 / 2 → roundRatio .toEven q % 2 = 0)

/-- A sample is the rational number, not its numerator and denominator (00_scope.md R17): equal numbers are
encoded alike, under every tie rule. -/
def Obligations.EncodingDependsOnValueOnly : Prop :=
  ∀ (c : Config) (q q' : Ratio), q.den ≠ 0 → q'.den ≠ 0 →
    (q.num : ℚ) / (q.den : ℚ) = (q'.num : ℚ) / (q'.den : ℚ) → encode16 c q = encode16 c q'

/-- No saturation (42_acquisition.md R198): with ties to even, values that differ by 4 are encoded alike. -/
def Obligations.EncodingWrapsByFour : Prop :=
  ∀ (c : Config) (q : Ratio), c.roundTies = .toEven →
    encode16 c { q with num := q.num + 4 * (q.den : Int) } = encode16 c q

/-- At most one pull per check (42_acquisition.md R202): with k intervals strictly elapsed, k checks at one
time each answer true, each pull the next sample and advance `last` by one interval; the next answers false
if the next interval has not strictly elapsed. -/
def Obligations.OnePullPerCheck : Prop :=
  ∀ (k : Nat) (s : State) (t now : Time), 1 ≤ k → s.last = some t →
    t + k * s.config.odrTicks < now →
    repeatCheck now k s =
      (List.replicate k true, { repeatPull k s with last := some (t + k * s.config.odrTicks) }) ∧
    (now ≤ t + (k + 1) * s.config.odrTicks →
      isNewDataReady now (repeatCheck now k s).2 = (false, (repeatCheck now k s).2))

/-- The dataset is cyclic (42_acquisition.md R196): the n-th pull from index 0 takes
`DATASET[(n - 1) mod DATASET_LEN]`. -/
def Obligations.PullsCycleThroughDataset : Prop :=
  ∀ (n : Nat) (s : State) (p : Sample), s.idx = 0 →
    s.config.dataset[n % s.config.dataset.length]? = some p →
    (repeatPull (n + 1) s).data = sampleBytes s.config p ∧
      (repeatPull n s).idx = n % s.config.dataset.length

/-- The timing law (42_acquisition.md R203; 10_state.md R33; 70_reset_and_hazards.md R271): over any commands
that do not write ADDR_PWR_MGMT, `last` stays on the grid of whole intervals after its start, and the
dataset index and the data registers have moved by exactly as many samples. -/
def Obligations.ScheduleStaysOnGrid : Prop :=
  ∀ (s u : State) (t0 : Time) (cs : List (Time × Instr)),
    IdxInv s → s.last = some t0 →
    execWhile (sparesRegister s.config.addrPwrMgmt.toNat) cs s = some u →
    ∃ n, u.last = some (t0 + n * s.config.odrTicks) ∧
      u.idx = (s.idx + n) % s.config.dataset.length ∧
      u.data = if n = 0 then s.data else sampleBytes s.config (sampleAt s.config (s.idx + n - 1))

/-- The data registers and the dataset position change only by a status read that answers 1
(42_acquisition.md R199; 70_reset_and_hazards.md R265). -/
def Obligations.SamplesMoveOnlyByStatusRead : Prop :=
  ∀ (i : Instr) (s t : State), exec i s = .next t → (t.data ≠ s.data ∨ t.idx ≠ s.idx) →
    readTarget i s = some s.config.addrStatus.toNat ∧
      (t.rsp = some (.ackData 0x01#8) ∨ t.rsp = some (.rdData 0x01#8))

/-- No torn sample between two status reads (20_memory.md R63; 70_reset_and_hazards.md R268): over any
commands that do not read STATUS the six data registers keep their bytes. -/
def Obligations.DataStableBetweenStatusReads : Prop :=
  ∀ (s u : State) (cs : List (Time × Instr)),
    execWhile (leavesUnread s.config.addrStatus.toNat) cs s = some u →
    u.data = s.data ∧ u.idx = s.idx

/-- The use of time (40_bus_protocol.md R139; 41_register_access.md R163, R164): a command that neither reads
STATUS nor writes the low-noise code to ADDR_PWR_MGMT does the same at every time. The field `now` is the
model's form of the time input (log 3). -/
def Obligations.TimeMattersOnlyToScheduleAccesses : Prop :=
  ∀ (i : Instr) (s : State) (n : Time),
    readTarget i s ≠ some s.config.addrStatus.toNat →
    (∀ v, writeTarget i s = some (s.config.addrPwrMgmt.toNat, v) →
      modeField s.config v ≠ s.config.modeLowNoise) →
    exec i { s with now := n } = mapNext (fun t => { t with now := n }) (exec i s)

/-! ## Invariants of every step -/

/-- The session invariant (10_state.md R24): it holds after reset and every step keeps it. -/
def Obligations.SessionInvariantKept : Prop :=
  (∀ c : Config, SessionInv (State.ofConfig c)) ∧
  ∀ s t : State, SessionInv s → step s = .next t → SessionInv t

/-- Right after reset, under every well-formed configuration, the state is good. That `State.reset` has the
configuration REFCFG is the model's choice (logs 1 and 17). -/
def Obligations.ResetStateIsGood : Prop :=
  SafeState State.reset ∧ ∀ c : Config, c.wf = true → SafeState (State.ofConfig c)

/-- Every step from a good state gives a good state: the session's table, the canonical memory of the
configuration registers, the pointer's width, the dataset's range, and the agreement of the stored mode code
with the power state and the fault latch. -/
def Obligations.GoodStatesStepToGoodStates : Prop :=
  ∀ s t : State, GoodState s → step s = .next t → GoodState t

/-- The stored mode code and the power state agree (60_exceptions.md R235; 41_register_access.md R166, R167;
00_scope.md R11(g)): after every step from a good state, a running block has acquisition on exactly when the
byte in PWR_MGMT carries the low-noise code and off exactly when it carries the disabled one. -/
def Obligations.StoredModeIsPowerState : Prop :=
  ∀ s t : State, GoodState s → step s = .next t → t.fatal = false →
    (t.last.isSome = true ↔ storedMode t = t.config.modeLowNoise) ∧
    (t.last = none ↔ storedMode t = t.config.modeDisabled)

/-- Only values mutate (10_state.md R42, R40): no step changes the configuration, hence none of the address
sets and lengths it fixes; and the environment's queue, the model's own field (log 2), loses exactly the
input taken. -/
def Obligations.ConfigurationNeverChanges : Prop :=
  ∀ s t : State, step s = .next t → t.config = s.config ∧ t.inbox = s.inbox.tail

/-- The environment's obligation (00_scope.md R16): if the times still to come never decrease, they do not
after a step; and then `last` is never ahead of the time of the command just processed. -/
def Obligations.ScheduleNeverAheadOfTime : Prop :=
  ∀ s t : State, timesRise s.now s.inbox = true → (∀ x ∈ s.last, x ≤ s.now) →
    step s = .next t → timesRise t.now t.inbox = true ∧ ∀ x ∈ t.last, x ≤ t.now

/-- The model's choice (logs 1 to 4 and 17): the host's one reset state is the state after reset under
REFCFG, whose two configuration registers hold 0x00 and 0x06, with no input, time 0 and no response. -/
def Obligations.ResetStateHasReferenceConfig : Prop :=
  State.reset = State.ofConfig Config.reference ∧ State.reset.config = Config.reference ∧
    State.reset.cfgByte 0x1F = 0x00#8 ∧ State.reset.cfgByte 0x21 = 0x06#8 ∧
    State.reset.inbox = [] ∧ State.reset.now = 0 ∧ State.reset.rsp = none
end

