-- ==== Sys2Proof/Laws/Decode.lean ====
section
/-! SUPPORT. The three fields of a command word, bit by bit. -/

namespace Sys2Proof

/-- The bits of a word made of three fields. -/
theorem cmdWord_getLsbD (op : BitVec 4) (a b : Byte) (i : Nat) :
    (cmdWord op a b).getLsbD i =
      if i < 8 then b.getLsbD i else if i < 16 then a.getLsbD (i - 8) else op.getLsbD (i - 16) := by
  have h : (cmdWord op a b).getLsbD i = (op ++ a ++ b : BitVec (4 + 8 + 8)).getLsbD i := rfl
  rw [h, BitVec.getLsbD_append, BitVec.getLsbD_append]
  by_cases h1 : i < 8
  · simp [h1]
  · by_cases h2 : i < 16
    · rw [if_neg h1, if_pos h2, if_neg h1, if_pos (by omega : i - 8 < 8)]
    · rw [if_neg h1, if_neg h2, if_neg h1, if_neg (by omega : ¬i - 8 < 8),
        (by omega : i - 8 - 8 = i - 16)]

@[simp] theorem opField_cmdWord (op : BitVec 4) (a b : Byte) : opField (cmdWord op a b) = op := by
  apply BitVec.eq_of_getLsbD_eq
  intro i hi
  simp [opField, cmdWord_getLsbD, hi, Nat.not_lt_of_ge (by omega : 8 ≤ 16 + i)]

@[simp] theorem aField_cmdWord (op : BitVec 4) (a b : Byte) : aField (cmdWord op a b) = a := by
  apply BitVec.eq_of_getLsbD_eq
  intro i hi
  simp [aField, cmdWord_getLsbD, hi, (by omega : 8 + i < 16)]

@[simp] theorem bField_cmdWord (op : BitVec 4) (a b : Byte) : bField (cmdWord op a b) = b := by
  apply BitVec.eq_of_getLsbD_eq
  intro i hi
  simp [bField, cmdWord_getLsbD, hi]

/-- A word is made of its three fields. -/
theorem cmdWord_fields (w : CmdWord) : cmdWord (opField w) (aField w) (bField w) = w := by
  apply BitVec.eq_of_getLsbD_eq
  intro i hi
  rw [cmdWord_getLsbD]
  split
  · simp [bField, *]
  · split
    · simp [aField, (by omega : i - 8 < 8), (by omega : 8 + (i - 8) = i)]
    · simp [opField, (by omega : i - 16 < 4), (by omega : 16 + (i - 16) = i)]

end Sys2Proof
end

