-- ==== Sys2Proof/Laws/State.lean ====
section
/-! SUPPORT. What each update of the state does to each field: one lemma per field per update, so that no
later proof unfolds an update. -/

namespace Sys2Proof.Machine

open Sys2Proof

/-! ## `State.respond` -/

@[simp] theorem State.respond_config (s : State) (r : Rsp) : (s.respond r).config = s.config := rfl
@[simp] theorem State.respond_fsm (s : State) (r : Rsp) : (s.respond r).fsm = s.fsm := rfl
@[simp] theorem State.respond_ptr (s : State) (r : Rsp) : (s.respond r).ptr = s.ptr := rfl
@[simp] theorem State.respond_dir (s : State) (r : Rsp) : (s.respond r).dir = s.dir := rfl
@[simp] theorem State.respond_cfg (s : State) (r : Rsp) : (s.respond r).cfg = s.cfg := rfl
@[simp] theorem State.respond_data (s : State) (r : Rsp) : (s.respond r).data = s.data := rfl
@[simp] theorem State.respond_last (s : State) (r : Rsp) : (s.respond r).last = s.last := rfl
@[simp] theorem State.respond_idx (s : State) (r : Rsp) : (s.respond r).idx = s.idx := rfl
@[simp] theorem State.respond_fatal (s : State) (r : Rsp) : (s.respond r).fatal = s.fatal := rfl
@[simp] theorem State.respond_inbox (s : State) (r : Rsp) : (s.respond r).inbox = s.inbox := rfl
@[simp] theorem State.respond_now (s : State) (r : Rsp) : (s.respond r).now = s.now := rfl
@[simp] theorem State.respond_rsp (s : State) (r : Rsp) : (s.respond r).rsp = some r := rfl

/-! ## `State.clearSession` -/

@[simp] theorem State.clearSession_config (s : State) : s.clearSession.config = s.config := rfl
@[simp] theorem State.clearSession_fsm (s : State) : s.clearSession.fsm = .idle := rfl
@[simp] theorem State.clearSession_ptr (s : State) : s.clearSession.ptr = none := rfl
@[simp] theorem State.clearSession_dir (s : State) : s.clearSession.dir = none := rfl
@[simp] theorem State.clearSession_cfg (s : State) : s.clearSession.cfg = s.cfg := rfl
@[simp] theorem State.clearSession_data (s : State) : s.clearSession.data = s.data := rfl
@[simp] theorem State.clearSession_last (s : State) : s.clearSession.last = s.last := rfl
@[simp] theorem State.clearSession_idx (s : State) : s.clearSession.idx = s.idx := rfl
@[simp] theorem State.clearSession_fatal (s : State) : s.clearSession.fatal = s.fatal := rfl
@[simp] theorem State.clearSession_inbox (s : State) : s.clearSession.inbox = s.inbox := rfl
@[simp] theorem State.clearSession_now (s : State) : s.clearSession.now = s.now := rfl
@[simp] theorem State.clearSession_rsp (s : State) : s.clearSession.rsp = s.rsp := rfl

/-! ## `State.setCfgByte` -/

@[simp] theorem State.setCfgByte_config (s : State) (a : Nat) (v : Byte) :
    (s.setCfgByte a v).config = s.config := rfl
@[simp] theorem State.setCfgByte_fsm (s : State) (a : Nat) (v : Byte) :
    (s.setCfgByte a v).fsm = s.fsm := rfl
@[simp] theorem State.setCfgByte_ptr (s : State) (a : Nat) (v : Byte) :
    (s.setCfgByte a v).ptr = s.ptr := rfl
@[simp] theorem State.setCfgByte_dir (s : State) (a : Nat) (v : Byte) :
    (s.setCfgByte a v).dir = s.dir := rfl
@[simp] theorem State.setCfgByte_cfg (s : State) (a : Nat) (v : Byte) :
    (s.setCfgByte a v).cfg = Memory.write (resetByte s.config) s.cfg a v := rfl
@[simp] theorem State.setCfgByte_data (s : State) (a : Nat) (v : Byte) :
    (s.setCfgByte a v).data = s.data := rfl
@[simp] theorem State.setCfgByte_last (s : State) (a : Nat) (v : Byte) :
    (s.setCfgByte a v).last = s.last := rfl
@[simp] theorem State.setCfgByte_idx (s : State) (a : Nat) (v : Byte) :
    (s.setCfgByte a v).idx = s.idx := rfl
@[simp] theorem State.setCfgByte_fatal (s : State) (a : Nat) (v : Byte) :
    (s.setCfgByte a v).fatal = s.fatal := rfl
@[simp] theorem State.setCfgByte_inbox (s : State) (a : Nat) (v : Byte) :
    (s.setCfgByte a v).inbox = s.inbox := rfl
@[simp] theorem State.setCfgByte_now (s : State) (a : Nat) (v : Byte) :
    (s.setCfgByte a v).now = s.now := rfl
@[simp] theorem State.setCfgByte_rsp (s : State) (a : Nat) (v : Byte) :
    (s.setCfgByte a v).rsp = s.rsp := rfl

/-! ## `abort` -/

@[simp] theorem abort_config (s : State) : (abort s).config = s.config := rfl
@[simp] theorem abort_fsm (s : State) : (abort s).fsm = .idle := rfl
@[simp] theorem abort_ptr (s : State) : (abort s).ptr = none := rfl
@[simp] theorem abort_dir (s : State) : (abort s).dir = none := rfl
@[simp] theorem abort_cfg (s : State) : (abort s).cfg = s.cfg := rfl
@[simp] theorem abort_data (s : State) : (abort s).data = s.data := rfl
@[simp] theorem abort_last (s : State) : (abort s).last = s.last := rfl
@[simp] theorem abort_idx (s : State) : (abort s).idx = s.idx := rfl
@[simp] theorem abort_fatal (s : State) : (abort s).fatal = s.fatal := rfl
@[simp] theorem abort_inbox (s : State) : (abort s).inbox = s.inbox := rfl
@[simp] theorem abort_now (s : State) : (abort s).now = s.now := rfl
@[simp] theorem abort_rsp (s : State) : (abort s).rsp = some .perr := rfl

/-! ## `endSession` -/

@[simp] theorem endSession_config (s : State) : (endSession s).config = s.config := rfl
@[simp] theorem endSession_fsm (s : State) : (endSession s).fsm = .idle := rfl
@[simp] theorem endSession_ptr (s : State) : (endSession s).ptr = none := rfl
@[simp] theorem endSession_dir (s : State) : (endSession s).dir = none := rfl
@[simp] theorem endSession_cfg (s : State) : (endSession s).cfg = s.cfg := rfl
@[simp] theorem endSession_data (s : State) : (endSession s).data = s.data := rfl
@[simp] theorem endSession_last (s : State) : (endSession s).last = s.last := rfl
@[simp] theorem endSession_idx (s : State) : (endSession s).idx = s.idx := rfl
@[simp] theorem endSession_fatal (s : State) : (endSession s).fatal = s.fatal := rfl
@[simp] theorem endSession_inbox (s : State) : (endSession s).inbox = s.inbox := rfl
@[simp] theorem endSession_now (s : State) : (endSession s).now = s.now := rfl
@[simp] theorem endSession_rsp (s : State) : (endSession s).rsp = some .eot := rfl

/-! ## `commandError` -/

@[simp] theorem commandError_config (s : State) : (commandError s).config = s.config := rfl
@[simp] theorem commandError_fsm (s : State) : (commandError s).fsm = s.fsm := rfl
@[simp] theorem commandError_ptr (s : State) : (commandError s).ptr = s.ptr := rfl
@[simp] theorem commandError_dir (s : State) : (commandError s).dir = s.dir := rfl
@[simp] theorem commandError_cfg (s : State) : (commandError s).cfg = s.cfg := rfl
@[simp] theorem commandError_data (s : State) : (commandError s).data = s.data := rfl
@[simp] theorem commandError_last (s : State) : (commandError s).last = s.last := rfl
@[simp] theorem commandError_idx (s : State) : (commandError s).idx = s.idx := rfl
@[simp] theorem commandError_fatal (s : State) : (commandError s).fatal = s.fatal := rfl
@[simp] theorem commandError_inbox (s : State) : (commandError s).inbox = s.inbox := rfl
@[simp] theorem commandError_now (s : State) : (commandError s).now = s.now := rfl
@[simp] theorem commandError_rsp (s : State) : (commandError s).rsp = some .cmdError := rfl

/-! ## `raiseFatal` -/

@[simp] theorem raiseFatal_config (s : State) : (raiseFatal s).config = s.config := rfl
@[simp] theorem raiseFatal_fsm (s : State) : (raiseFatal s).fsm = s.fsm := rfl
@[simp] theorem raiseFatal_ptr (s : State) : (raiseFatal s).ptr = s.ptr := rfl
@[simp] theorem raiseFatal_dir (s : State) : (raiseFatal s).dir = s.dir := rfl
@[simp] theorem raiseFatal_cfg (s : State) : (raiseFatal s).cfg = s.cfg := rfl
@[simp] theorem raiseFatal_data (s : State) : (raiseFatal s).data = s.data := rfl
@[simp] theorem raiseFatal_last (s : State) : (raiseFatal s).last = s.last := rfl
@[simp] theorem raiseFatal_idx (s : State) : (raiseFatal s).idx = s.idx := rfl
@[simp] theorem raiseFatal_fatal (s : State) : (raiseFatal s).fatal = true := rfl
@[simp] theorem raiseFatal_inbox (s : State) : (raiseFatal s).inbox = s.inbox := rfl
@[simp] theorem raiseFatal_now (s : State) : (raiseFatal s).now = s.now := rfl
@[simp] theorem raiseFatal_rsp (s : State) : (raiseFatal s).rsp = some .fatal := rfl

/-! ## `enable` -/

@[simp] theorem enable_config (now : Time) (s : State) : (enable now s).config = s.config := rfl
@[simp] theorem enable_fsm (now : Time) (s : State) : (enable now s).fsm = s.fsm := rfl
@[simp] theorem enable_ptr (now : Time) (s : State) : (enable now s).ptr = s.ptr := rfl
@[simp] theorem enable_dir (now : Time) (s : State) : (enable now s).dir = s.dir := rfl
@[simp] theorem enable_cfg (now : Time) (s : State) : (enable now s).cfg = s.cfg := rfl
@[simp] theorem enable_data (now : Time) (s : State) : (enable now s).data = s.data := rfl
@[simp] theorem enable_last (now : Time) (s : State) : (enable now s).last = some now := rfl
@[simp] theorem enable_idx (now : Time) (s : State) : (enable now s).idx = s.idx := rfl
@[simp] theorem enable_fatal (now : Time) (s : State) : (enable now s).fatal = s.fatal := rfl
@[simp] theorem enable_inbox (now : Time) (s : State) : (enable now s).inbox = s.inbox := rfl
@[simp] theorem enable_now (now : Time) (s : State) : (enable now s).now = s.now := rfl
@[simp] theorem enable_rsp (now : Time) (s : State) : (enable now s).rsp = s.rsp := rfl

/-! ## `disable` -/

@[simp] theorem disable_config (s : State) : (disable s).config = s.config := rfl
@[simp] theorem disable_fsm (s : State) : (disable s).fsm = s.fsm := rfl
@[simp] theorem disable_ptr (s : State) : (disable s).ptr = s.ptr := rfl
@[simp] theorem disable_dir (s : State) : (disable s).dir = s.dir := rfl
@[simp] theorem disable_cfg (s : State) : (disable s).cfg = s.cfg := rfl
@[simp] theorem disable_data (s : State) : (disable s).data = s.data := rfl
@[simp] theorem disable_last (s : State) : (disable s).last = none := rfl
@[simp] theorem disable_idx (s : State) : (disable s).idx = s.idx := rfl
@[simp] theorem disable_fatal (s : State) : (disable s).fatal = s.fatal := rfl
@[simp] theorem disable_inbox (s : State) : (disable s).inbox = s.inbox := rfl
@[simp] theorem disable_now (s : State) : (disable s).now = s.now := rfl
@[simp] theorem disable_rsp (s : State) : (disable s).rsp = s.rsp := rfl

/-! ## `pull` -/

@[simp] theorem pull_config (s : State) : (pull s).config = s.config := rfl
@[simp] theorem pull_fsm (s : State) : (pull s).fsm = s.fsm := rfl
@[simp] theorem pull_ptr (s : State) : (pull s).ptr = s.ptr := rfl
@[simp] theorem pull_dir (s : State) : (pull s).dir = s.dir := rfl
@[simp] theorem pull_cfg (s : State) : (pull s).cfg = s.cfg := rfl
@[simp] theorem pull_data (s : State) :
    (pull s).data = sampleBytes s.config (sampleAt s.config s.idx) := rfl
@[simp] theorem pull_last (s : State) : (pull s).last = s.last := rfl
@[simp] theorem pull_idx (s : State) : (pull s).idx = (s.idx + 1) % s.config.dataset.length := rfl
@[simp] theorem pull_fatal (s : State) : (pull s).fatal = s.fatal := rfl
@[simp] theorem pull_inbox (s : State) : (pull s).inbox = s.inbox := rfl
@[simp] theorem pull_now (s : State) : (pull s).now = s.now := rfl
@[simp] theorem pull_rsp (s : State) : (pull s).rsp = s.rsp := rfl

/-! ## `resetEvent` -/

@[simp] theorem resetEvent_config (s : State) : (resetEvent s).config = s.config := rfl
@[simp] theorem resetEvent_fsm (s : State) : (resetEvent s).fsm = .idle := rfl
@[simp] theorem resetEvent_ptr (s : State) : (resetEvent s).ptr = none := rfl
@[simp] theorem resetEvent_dir (s : State) : (resetEvent s).dir = none := rfl
@[simp] theorem resetEvent_cfg (s : State) : (resetEvent s).cfg = [] := rfl
@[simp] theorem resetEvent_data (s : State) :
    (resetEvent s).data = (State.ofConfig s.config).data := rfl
@[simp] theorem resetEvent_last (s : State) : (resetEvent s).last = none := rfl
@[simp] theorem resetEvent_idx (s : State) : (resetEvent s).idx = 0 := rfl
@[simp] theorem resetEvent_fatal (s : State) : (resetEvent s).fatal = false := rfl
@[simp] theorem resetEvent_inbox (s : State) : (resetEvent s).inbox = s.inbox := rfl
@[simp] theorem resetEvent_now (s : State) : (resetEvent s).now = s.now := rfl
@[simp] theorem resetEvent_rsp (s : State) : (resetEvent s).rsp = none := rfl

/-! ## `presentWord` -/

@[simp] theorem presentWord_config (s : State) (w : CmdWord) :
    (presentWord s w).config = s.config := rfl
@[simp] theorem presentWord_fsm (s : State) (w : CmdWord) : (presentWord s w).fsm = s.fsm := rfl
@[simp] theorem presentWord_ptr (s : State) (w : CmdWord) : (presentWord s w).ptr = s.ptr := rfl
@[simp] theorem presentWord_dir (s : State) (w : CmdWord) : (presentWord s w).dir = s.dir := rfl
@[simp] theorem presentWord_cfg (s : State) (w : CmdWord) : (presentWord s w).cfg = s.cfg := rfl
@[simp] theorem presentWord_data (s : State) (w : CmdWord) : (presentWord s w).data = s.data := rfl
@[simp] theorem presentWord_last (s : State) (w : CmdWord) : (presentWord s w).last = s.last := rfl
@[simp] theorem presentWord_idx (s : State) (w : CmdWord) : (presentWord s w).idx = s.idx := rfl
@[simp] theorem presentWord_fatal (s : State) (w : CmdWord) :
    (presentWord s w).fatal = s.fatal := rfl
@[simp] theorem presentWord_inbox (s : State) (w : CmdWord) :
    (presentWord s w).inbox = .command s.now w :: s.inbox := rfl
@[simp] theorem presentWord_now (s : State) (w : CmdWord) : (presentWord s w).now = s.now := rfl
@[simp] theorem presentWord_rsp (s : State) (w : CmdWord) : (presentWord s w).rsp = s.rsp := rfl

end Sys2Proof.Machine
end

