-- ==== Sys2Proof/Laws/Ops.lean ====
section
/-! SUPPORT. For each shared operation, once, everything it can do. -/

namespace Sys2Proof.Machine

open Sys2Proof

/-- A command has a next state only if the block is not halted. -/
theorem unlessHalted_next {s t : State} {k : Result} :
    unlessHalted s k = .next t ↔ s.fatal = false ∧ k = .next t := by
  cases h : s.fatal <;> simp [unlessHalted, h]

theorem unlessHalted_running {s : State} (k : Result) (h : s.fatal = false) :
    unlessHalted s k = k := by
  simp [unlessHalted, h]

theorem unlessHalted_halted {s : State} (k : Result) (h : s.fatal = true) :
    unlessHalted s k = .fault .halted := by
  simp [unlessHalted, h]

/-- A readiness check either changes nothing and answers false, or pulls one sample and moves the
schedule by one interval. -/
theorem isNewDataReady_cases (now : Time) (s : State) :
    isNewDataReady now s = (false, s) ∨
      ∃ t, s.last = some t ∧ t + s.config.odrTicks < now ∧
        isNewDataReady now s = (true, { pull s with last := some (t + s.config.odrTicks) }) := by
  cases hl : s.last with
  | none => exact .inl (by simp [isNewDataReady, hl])
  | some t =>
    by_cases hd : t + s.config.odrTicks < now
    · exact .inr ⟨t, rfl, hd, by simp [isNewDataReady, hl, sampleDue, hd]⟩
    · exact .inl (by simp [isNewDataReady, hl, sampleDue, hd])

/-- A register read changes the state only by a readiness check that pulls, at the status register. -/
theorem regRead_state (a : Nat) (now : Time) (s : State) :
    (regRead a now s).2 = s ∨
      category s.config a = .status ∧ ∃ t, s.last = some t ∧ t + s.config.odrTicks < now ∧
        (regRead a now s).2 = { pull s with last := some (t + s.config.odrTicks) } := by
  unfold regRead
  split
  · exact .inl rfl
  · next hc =>
    rcases isNewDataReady_cases now s with h | ⟨t, hl, hd, h⟩
    · exact .inl (by rw [h])
    · exact .inr ⟨hc, t, hl, hd, by rw [h]⟩
  · exact .inl rfl
  · exact .inl rfl

/-- What a power-management write does, by the mode code written. -/
theorem pwrWrite_cases (v : Byte) (now : Time) (s : State) :
    (modeField s.config v = s.config.modeLowNoise ∧ pwrWrite v now s = enable now s) ∨
      (modeField s.config v ≠ s.config.modeLowNoise ∧
        modeField s.config v = s.config.modeDisabled ∧ pwrWrite v now s = disable s) ∨
      (unsupportedMode s.config (modeField s.config v) = true ∧ pwrWrite v now s = raiseFatal s) := by
  by_cases h1 : modeField s.config v = s.config.modeLowNoise
  · exact .inl ⟨h1, if_pos h1⟩
  · by_cases h2 : modeField s.config v = s.config.modeDisabled
    · refine .inr (.inl ⟨h1, h2, ?_⟩)
      unfold pwrWrite
      rw [if_neg h1, if_pos h2]
    · refine .inr (.inr ⟨by simp [unsupportedMode, h1, h2], ?_⟩)
      unfold pwrWrite
      rw [if_neg h1, if_neg h2]

/-- What a register write does, by the category of the address. -/
theorem regWrite_cases (a : Nat) (v : Byte) (now : Time) (s : State) :
    (category s.config a ≠ .config ∧ regWrite a v now s = s) ∨
      (category s.config a = .config ∧ a ≠ s.config.addrPwrMgmt.toNat ∧
        regWrite a v now s = s.setCfgByte a v) ∨
      (category s.config a = .config ∧ a = s.config.addrPwrMgmt.toNat ∧
        regWrite a v now s = pwrWrite v now (s.setCfgByte a v)) := by
  unfold regWrite
  split
  · next hc =>
    by_cases h : a = s.config.addrPwrMgmt.toNat
    · exact .inr (.inr ⟨hc, h, if_pos h⟩)
    · exact .inr (.inl ⟨hc, h, if_neg h⟩)
  all_goals next hc => exact .inl ⟨by simp [hc], rfl⟩

/-! A register read leaves everything but the acquisition state alone. -/

@[simp] theorem regRead_config (a : Nat) (now : Time) (s : State) :
    (regRead a now s).2.config = s.config := by
  rcases regRead_state a now s with h | ⟨_, _, _, _, h⟩ <;> simp [h]

@[simp] theorem regRead_fsm (a : Nat) (now : Time) (s : State) :
    (regRead a now s).2.fsm = s.fsm := by
  rcases regRead_state a now s with h | ⟨_, _, _, _, h⟩ <;> simp [h]

@[simp] theorem regRead_ptr (a : Nat) (now : Time) (s : State) :
    (regRead a now s).2.ptr = s.ptr := by
  rcases regRead_state a now s with h | ⟨_, _, _, _, h⟩ <;> simp [h]

@[simp] theorem regRead_dir (a : Nat) (now : Time) (s : State) :
    (regRead a now s).2.dir = s.dir := by
  rcases regRead_state a now s with h | ⟨_, _, _, _, h⟩ <;> simp [h]

@[simp] theorem regRead_cfg (a : Nat) (now : Time) (s : State) :
    (regRead a now s).2.cfg = s.cfg := by
  rcases regRead_state a now s with h | ⟨_, _, _, _, h⟩ <;> simp [h]

@[simp] theorem regRead_fatal (a : Nat) (now : Time) (s : State) :
    (regRead a now s).2.fatal = s.fatal := by
  rcases regRead_state a now s with h | ⟨_, _, _, _, h⟩ <;> simp [h]

@[simp] theorem regRead_inbox (a : Nat) (now : Time) (s : State) :
    (regRead a now s).2.inbox = s.inbox := by
  rcases regRead_state a now s with h | ⟨_, _, _, _, h⟩ <;> simp [h]

@[simp] theorem regRead_now (a : Nat) (now : Time) (s : State) :
    (regRead a now s).2.now = s.now := by
  rcases regRead_state a now s with h | ⟨_, _, _, _, h⟩ <;> simp [h]

@[simp] theorem regRead_rsp (a : Nat) (now : Time) (s : State) :
    (regRead a now s).2.rsp = s.rsp := by
  rcases regRead_state a now s with h | ⟨_, _, _, _, h⟩ <;> simp [h]

/-! A register write leaves the session, the samples and the environment alone. -/

@[simp] theorem pwrWrite_config (v : Byte) (now : Time) (s : State) :
    (pwrWrite v now s).config = s.config := by
  rcases pwrWrite_cases v now s with ⟨_, h⟩ | ⟨_, _, h⟩ | ⟨_, h⟩ <;> simp [h]

@[simp] theorem pwrWrite_fsm (v : Byte) (now : Time) (s : State) :
    (pwrWrite v now s).fsm = s.fsm := by
  rcases pwrWrite_cases v now s with ⟨_, h⟩ | ⟨_, _, h⟩ | ⟨_, h⟩ <;> simp [h]

@[simp] theorem pwrWrite_ptr (v : Byte) (now : Time) (s : State) :
    (pwrWrite v now s).ptr = s.ptr := by
  rcases pwrWrite_cases v now s with ⟨_, h⟩ | ⟨_, _, h⟩ | ⟨_, h⟩ <;> simp [h]

@[simp] theorem pwrWrite_dir (v : Byte) (now : Time) (s : State) :
    (pwrWrite v now s).dir = s.dir := by
  rcases pwrWrite_cases v now s with ⟨_, h⟩ | ⟨_, _, h⟩ | ⟨_, h⟩ <;> simp [h]

@[simp] theorem pwrWrite_data (v : Byte) (now : Time) (s : State) :
    (pwrWrite v now s).data = s.data := by
  rcases pwrWrite_cases v now s with ⟨_, h⟩ | ⟨_, _, h⟩ | ⟨_, h⟩ <;> simp [h]

@[simp] theorem pwrWrite_idx (v : Byte) (now : Time) (s : State) :
    (pwrWrite v now s).idx = s.idx := by
  rcases pwrWrite_cases v now s with ⟨_, h⟩ | ⟨_, _, h⟩ | ⟨_, h⟩ <;> simp [h]

@[simp] theorem pwrWrite_inbox (v : Byte) (now : Time) (s : State) :
    (pwrWrite v now s).inbox = s.inbox := by
  rcases pwrWrite_cases v now s with ⟨_, h⟩ | ⟨_, _, h⟩ | ⟨_, h⟩ <;> simp [h]

@[simp] theorem pwrWrite_now (v : Byte) (now : Time) (s : State) :
    (pwrWrite v now s).now = s.now := by
  rcases pwrWrite_cases v now s with ⟨_, h⟩ | ⟨_, _, h⟩ | ⟨_, h⟩ <;> simp [h]

@[simp] theorem pwrWrite_cfg (v : Byte) (now : Time) (s : State) :
    (pwrWrite v now s).cfg = s.cfg := by
  rcases pwrWrite_cases v now s with ⟨_, h⟩ | ⟨_, _, h⟩ | ⟨_, h⟩ <;> simp [h]

@[simp] theorem regWrite_config (a : Nat) (v : Byte) (now : Time) (s : State) :
    (regWrite a v now s).config = s.config := by
  rcases regWrite_cases a v now s with ⟨_, h⟩ | ⟨_, _, h⟩ | ⟨_, _, h⟩ <;> simp [h]

@[simp] theorem regWrite_fsm (a : Nat) (v : Byte) (now : Time) (s : State) :
    (regWrite a v now s).fsm = s.fsm := by
  rcases regWrite_cases a v now s with ⟨_, h⟩ | ⟨_, _, h⟩ | ⟨_, _, h⟩ <;> simp [h]

@[simp] theorem regWrite_ptr (a : Nat) (v : Byte) (now : Time) (s : State) :
    (regWrite a v now s).ptr = s.ptr := by
  rcases regWrite_cases a v now s with ⟨_, h⟩ | ⟨_, _, h⟩ | ⟨_, _, h⟩ <;> simp [h]

@[simp] theorem regWrite_dir (a : Nat) (v : Byte) (now : Time) (s : State) :
    (regWrite a v now s).dir = s.dir := by
  rcases regWrite_cases a v now s with ⟨_, h⟩ | ⟨_, _, h⟩ | ⟨_, _, h⟩ <;> simp [h]

@[simp] theorem regWrite_data (a : Nat) (v : Byte) (now : Time) (s : State) :
    (regWrite a v now s).data = s.data := by
  rcases regWrite_cases a v now s with ⟨_, h⟩ | ⟨_, _, h⟩ | ⟨_, _, h⟩ <;> simp [h]

@[simp] theorem regWrite_idx (a : Nat) (v : Byte) (now : Time) (s : State) :
    (regWrite a v now s).idx = s.idx := by
  rcases regWrite_cases a v now s with ⟨_, h⟩ | ⟨_, _, h⟩ | ⟨_, _, h⟩ <;> simp [h]

@[simp] theorem regWrite_inbox (a : Nat) (v : Byte) (now : Time) (s : State) :
    (regWrite a v now s).inbox = s.inbox := by
  rcases regWrite_cases a v now s with ⟨_, h⟩ | ⟨_, _, h⟩ | ⟨_, _, h⟩ <;> simp [h]

@[simp] theorem regWrite_now (a : Nat) (v : Byte) (now : Time) (s : State) :
    (regWrite a v now s).now = s.now := by
  rcases regWrite_cases a v now s with ⟨_, h⟩ | ⟨_, _, h⟩ | ⟨_, _, h⟩ <;> simp [h]

/-- A bus read has a next state exactly when a register is selected. -/
theorem readNext_next {s t : State} :
    readNext s = .next t ↔ ∃ p, s.ptr = some p ∧
      t = { (regRead p s.now s).2 with ptr := some (nextPtr s.config p) }.respond
        (.ackData (regRead p s.now s).1) := by
  unfold readNext
  cases hp : s.ptr with
  | none => simp
  | some p =>
    simp only [Option.some.injEq, Host.Outcome.next.injEq]
    exact ⟨fun h => ⟨p, rfl, h.symm⟩, fun ⟨q, hq, h⟩ => hq ▸ h.symm⟩

/-- A bus write has a next state exactly when a register is selected; the pointer advances unless the
write was fatal. -/
theorem writeNext_next {b : Byte} {s t : State} :
    writeNext b s = .next t ↔ ∃ p, s.ptr = some p ∧
      t = if (regWrite p b s.now s).fatal = true then (regWrite p b s.now s).respond .fatal
        else { regWrite p b s.now s with ptr := some (nextPtr s.config p) }.respond .ack := by
  unfold writeNext
  cases hp : s.ptr with
  | none => simp
  | some p =>
    simp only [Option.some.injEq]
    constructor
    · intro h
      refine ⟨p, rfl, ?_⟩
      split at h <;> rename_i hf <;> simp only [Host.Outcome.next.injEq] at h
      · rw [if_pos hf, h]
      · rw [if_neg hf, h]
    · rintro ⟨q, rfl, rfl⟩
      split <;> rfl

/-- A step takes the environment's next input: it waits, resets, or runs the decoded command. -/
theorem step_next {s t : State} (h : step s = .next t) :
    s.config.wf = true ∧
      ((s.inbox = [] ∧ s.fatal = false ∧ t = { s with rsp := none }) ∨
        (∃ rest, s.inbox = .reset :: rest ∧ t = resetEvent { s with inbox := rest }) ∨
        ∃ now w rest, s.inbox = .command now w :: rest ∧
          exec (decode w) { s with inbox := rest, now := now } = .next t) := by
  unfold step at h
  split at h
  · next hc =>
    refine ⟨hc, ?_⟩
    unfold fetch at h
    rcases hi : s.inbox with _ | ⟨_ | _, rest⟩ <;> simp only [hi] at h
    · obtain ⟨hf, hk⟩ := unlessHalted_next.1 h
      cases hk
      exact .inl ⟨rfl, hf, by rw [hi]⟩
    · exact .inr (.inr ⟨_, _, rest, rfl, h⟩)
    · cases h
      exact .inr (.inl ⟨rest, rfl, rfl⟩)
  · cases h

/-- The state `presentWord` makes gives its word's command to the very next fetch. -/
theorem fetch_presentWord (s : State) (w : CmdWord) :
    fetch (presentWord s w) = .command (decode w) s := rfl

/-- `withFetchWord` makes the very next step run the decoded word, at the state it started from. -/
theorem step_withFetchWord (s : State) (nbits w : Nat) (h : s.config.wf = true) :
    step (s.withFetchWord nbits w) = exec (decode (BitVec.ofNat 20 (w % 2 ^ nbits))) s := by
  have hc : (s.withFetchWord nbits w).config.wf = true := h
  unfold step
  rw [if_pos hc]
  rfl

end Sys2Proof.Machine
end

