-- ==== Sys2Proof/Laws/Exec.lean ====
section
/-! SUPPORT. Once, everything a command can do: if `exec i s` answers a next state, it is one of the
effects below. -/

namespace Sys2Proof.Machine

open Sys2Proof

/-- The state in which START_R reads its first register. -/
abbrev beginRead (s : State) : State := { s with dir := some .read, fsm := .readActive }

/-- The effects of a command on a state that is not halted. -/
inductive Effect (s : State) : Instr → State → Prop
  | aborted (i : Instr) (port : i.onRegisterPort = false) (cell : accepted i s = false) :
    Effect s i (abort s)
  | opened (a : Byte) (fsm : s.fsm = .idle) (addr : a = s.config.devAddr) :
    Effect s (.startW a) ({ s with fsm := .registerSelect, dir := some .write }.respond .ack)
  | selected (b : Byte) (fsm : s.fsm = .registerSelect) :
    Effect s (.byte b) ({ s with ptr := some b.toNat, fsm := .writeActive }.respond .ack)
  | readFirst (a : Byte) (p : Nat) (fsm : s.fsm = .writeActive) (addr : a = s.config.devAddr)
      (ptr : s.ptr = some p) :
    Effect s (.startR a)
      ({ (regRead p s.now (beginRead s)).2 with ptr := some (nextPtr s.config p) }.respond
        (.ackData (regRead p s.now (beginRead s)).1))
  | readOn (p : Nat) (fsm : s.fsm = .readActive) (ptr : s.ptr = some p) :
    Effect s .ack
      ({ (regRead p s.now s).2 with ptr := some (nextPtr s.config p) }.respond
        (.ackData (regRead p s.now s).1))
  | wrote (b : Byte) (p : Nat) (fsm : s.fsm = .writeActive) (enabled : s.config.writePathEn = true)
      (ptr : s.ptr = some p) (running : (regWrite p b s.now s).fatal = false) :
    Effect s (.byte b)
      ({ regWrite p b s.now s with ptr := some (nextPtr s.config p) }.respond .ack)
  | wroteFatal (b : Byte) (p : Nat) (fsm : s.fsm = .writeActive)
      (enabled : s.config.writePathEn = true) (ptr : s.ptr = some p)
      (halted : (regWrite p b s.now s).fatal = true) :
    Effect s (.byte b) ((regWrite p b s.now s).respond .fatal)
  | endedRead (fsm : s.fsm = .readActive) : Effect s .nackStop (endSession s)
  | endedWrite (fsm : s.fsm = .writeActive) (enabled : s.config.writePathEn = true) :
    Effect s .stop (endSession s)
  | portRead (r : Byte) :
    Effect s (.readByte r)
      ((regRead r.toNat s.now s).2.respond (.rdData (regRead r.toNat s.now s).1))
  | portWrote (r v : Byte) (running : (regWrite r.toNat v s.now s).fatal = false) :
    Effect s (.writeByte r v) ((regWrite r.toNat v s.now s).respond .success)
  | portWroteFatal (r v : Byte) (halted : (regWrite r.toNat v s.now s).fatal = true) :
    Effect s (.writeByte r v) ((regWrite r.toNat v s.now s).respond .fatal)
  | portUnrecognized : Effect s .regUnrecognized (commandError s)

theorem execStartW_effect {a : Byte} {s t : State} (h : execStartW a s = .next t) :
    s.fatal = false ∧ Effect s (.startW a) t := by
  obtain ⟨hf, hk⟩ := unlessHalted_next.1 h
  refine ⟨hf, ?_⟩
  split at hk
  · next hfsm =>
    split at hk <;> cases hk
    · next ha => exact .opened a hfsm ha
    · exact .aborted _ rfl (by simp_all [accepted])
  all_goals cases hk; exact .aborted _ rfl (by simp_all [accepted])

theorem execStartR_effect {a : Byte} {s t : State} (h : execStartR a s = .next t) :
    s.fatal = false ∧ Effect s (.startR a) t := by
  obtain ⟨hf, hk⟩ := unlessHalted_next.1 h
  refine ⟨hf, ?_⟩
  split at hk
  · cases hk; exact .aborted _ rfl (by simp_all [accepted])
  · cases hk; exact .aborted _ rfl (by simp_all [accepted])
  · next hfsm =>
    split at hk
    · next ha =>
      obtain ⟨p, hp, rfl⟩ := readNext_next.1 hk
      exact .readFirst a p hfsm ha hp
    · cases hk; exact .aborted _ rfl (by simp_all [accepted])
  · cases hk; exact .aborted _ rfl (by simp_all [accepted])

theorem execByte_effect {b : Byte} {s t : State} (h : execByte b s = .next t) :
    s.fatal = false ∧ Effect s (.byte b) t := by
  obtain ⟨hf, hk⟩ := unlessHalted_next.1 h
  refine ⟨hf, ?_⟩
  split at hk
  · cases hk; exact .aborted _ rfl (by simp_all [accepted])
  · next hfsm => cases hk; exact .selected b hfsm
  · next hfsm =>
    split at hk
    · next he =>
      obtain ⟨p, hp, rfl⟩ := writeNext_next.1 hk
      split
      · next ht => exact .wroteFatal b p hfsm he hp ht
      · next ht => exact .wrote b p hfsm he hp (by simpa using ht)
    · cases hk; exact .aborted _ rfl (by simp_all [accepted])
  · cases hk; exact .aborted _ rfl (by simp_all [accepted])

theorem execAck_effect {s t : State} (h : execAck s = .next t) :
    s.fatal = false ∧ Effect s .ack t := by
  obtain ⟨hf, hk⟩ := unlessHalted_next.1 h
  refine ⟨hf, ?_⟩
  split at hk
  on_goal 4 =>
    next hfsm =>
      obtain ⟨p, hp, rfl⟩ := readNext_next.1 hk
      exact .readOn p hfsm hp
  all_goals cases hk; exact .aborted _ rfl (by simp_all [accepted])

theorem execNackStop_effect {s t : State} (h : execNackStop s = .next t) :
    s.fatal = false ∧ Effect s .nackStop t := by
  obtain ⟨hf, hk⟩ := unlessHalted_next.1 h
  refine ⟨hf, ?_⟩
  split at hk
  on_goal 4 => next hfsm => cases hk; exact .endedRead hfsm
  all_goals cases hk; exact .aborted _ rfl (by simp_all [accepted])

theorem execStop_effect {s t : State} (h : execStop s = .next t) :
    s.fatal = false ∧ Effect s .stop t := by
  obtain ⟨hf, hk⟩ := unlessHalted_next.1 h
  refine ⟨hf, ?_⟩
  split at hk
  · cases hk; exact .aborted _ rfl (by simp_all [accepted])
  · cases hk; exact .aborted _ rfl (by simp_all [accepted])
  · next hfsm =>
    split at hk <;> cases hk
    · next he => exact .endedWrite hfsm he
    · exact .aborted _ rfl (by simp_all [accepted])
  · cases hk; exact .aborted _ rfl (by simp_all [accepted])

theorem execBusMalformed_effect {s t : State} (h : execBusMalformed s = .next t) :
    s.fatal = false ∧ Effect s .busMalformed t := by
  obtain ⟨hf, hk⟩ := unlessHalted_next.1 h
  cases hk
  exact ⟨hf, .aborted _ rfl rfl⟩

theorem execReadByte_effect {r : Byte} {s t : State} (h : execReadByte r s = .next t) :
    s.fatal = false ∧ Effect s (.readByte r) t := by
  obtain ⟨hf, hk⟩ := unlessHalted_next.1 h
  cases hk
  exact ⟨hf, .portRead r⟩

theorem execWriteByte_effect {r v : Byte} {s t : State} (h : execWriteByte r v s = .next t) :
    s.fatal = false ∧ Effect s (.writeByte r v) t := by
  obtain ⟨hf, hk⟩ := unlessHalted_next.1 h
  refine ⟨hf, ?_⟩
  dsimp only at hk
  split at hk <;> cases hk
  · next ht => exact .portWroteFatal r v ht
  · next ht => exact .portWrote r v (by simpa using ht)

theorem execRegUnrecognized_effect {s t : State} (h : execRegUnrecognized s = .next t) :
    s.fatal = false ∧ Effect s .regUnrecognized t := by
  obtain ⟨hf, hk⟩ := unlessHalted_next.1 h
  cases hk
  exact ⟨hf, .portUnrecognized⟩

/-- Everything a command can do. -/
theorem exec_effect {i : Instr} {s t : State} (h : exec i s = .next t) :
    s.fatal = false ∧ Effect s i t := by
  cases i with
  | startW a => exact execStartW_effect h
  | startR a => exact execStartR_effect h
  | byte b => exact execByte_effect h
  | ack => exact execAck_effect h
  | nackStop => exact execNackStop_effect h
  | stop => exact execStop_effect h
  | busMalformed => exact execBusMalformed_effect h
  | readByte r => exact execReadByte_effect h
  | writeByte r v => exact execWriteByte_effect h
  | regUnrecognized => exact execRegUnrecognized_effect h

end Sys2Proof.Machine
end

