-- ==== Sys2Proof/Laws/Memory.lean ====
section
/-! SUPPORT. The configuration registers' memory: reading after writing, and the canonical form, which
every operation keeps. -/

namespace Sys2Proof.Machine

open Sys2Proof

variable {dflt : Nat → Byte}

/-- The lower bound of `Memory.wfAbove`, as a proposition. -/
abbrev aboveBound (lo : Option Nat) (a : Nat) : Prop := ∀ b ∈ lo, b < a

theorem Memory.wfAbove_cons {lo : Option Nat} {a : Nat} {v : Byte} {m : Memory} :
    Memory.wfAbove dflt lo ((a, v) :: m) = true ↔
      aboveBound lo a ∧ v ≠ dflt a ∧ Memory.wfAbove dflt (some a) m = true := by
  cases lo <;> simp [Memory.wfAbove, aboveBound, and_assoc]

theorem Memory.wfAbove_mono {lo lo' : Option Nat} {m : Memory}
    (h : Memory.wfAbove dflt lo m = true) (hlo : ∀ a, aboveBound lo a → aboveBound lo' a) :
    Memory.wfAbove dflt lo' m = true := by
  cases m with
  | nil => simp [Memory.wfAbove]
  | cons cell rest =>
    obtain ⟨a, v⟩ := cell
    rw [Memory.wfAbove_cons] at h ⊢
    exact ⟨hlo a h.1, h.2⟩

/-- An address at or below the bound is not listed. -/
theorem Memory.read_below {lo a : Nat} {m : Memory} (h : Memory.wfAbove dflt (some lo) m = true)
    (ha : a ≤ lo) : Memory.read dflt m a = dflt a := by
  induction m generalizing lo with
  | nil => rfl
  | cons cell rest ih =>
    obtain ⟨b, w⟩ := cell
    rw [Memory.wfAbove_cons] at h
    have hb : lo < b := h.1 lo rfl
    simp only [Memory.read, if_neg (by omega : ¬a = b)]
    exact ih h.2.2 (by omega)

/-- Writing keeps the canonical form above every bound below the address written. -/
theorem Memory.wfAbove_write {lo : Option Nat} {a : Nat} {v : Byte} {m : Memory}
    (h : Memory.wfAbove dflt lo m = true) (ha : aboveBound lo a) :
    Memory.wfAbove dflt lo (Memory.write dflt m a v) = true := by
  induction m generalizing lo with
  | nil =>
    by_cases hv : v = dflt a
    · simp [Memory.write, hv, Memory.wfAbove]
    · simp only [Memory.write, if_neg hv]
      exact Memory.wfAbove_cons.2 ⟨ha, hv, rfl⟩
  | cons cell rest ih =>
    obtain ⟨b, w⟩ := cell
    have hc := Memory.wfAbove_cons.1 h
    by_cases hlt : a < b
    · by_cases hv : v = dflt a
      · simpa [Memory.write, hlt, hv] using h
      · simp only [Memory.write, if_pos hlt, if_neg hv]
        exact Memory.wfAbove_cons.2
          ⟨ha, hv, Memory.wfAbove_cons.2 ⟨by simpa [aboveBound] using hlt, hc.2⟩⟩
    · by_cases heq : a = b
      · subst heq
        by_cases hv : v = dflt a
        · simp only [Memory.write, if_neg hlt, if_pos, if_pos hv]
          exact Memory.wfAbove_mono hc.2.2 fun x hx y hy => (ha y hy).trans (hx a rfl)
        · simp only [Memory.write, if_neg hlt, if_pos, if_neg hv]
          exact Memory.wfAbove_cons.2 ⟨ha, hv, hc.2.2⟩
      · simp only [Memory.write, if_neg hlt, if_neg heq]
        refine Memory.wfAbove_cons.2 ⟨hc.1, hc.2.1, ih hc.2.2 ?_⟩
        simp only [aboveBound, Option.mem_def, Option.some.injEq]
        omega

/-- A write keeps the canonical form (log 10). -/
theorem Memory.wf_write {m : Memory} (a : Nat) (v : Byte) (h : Memory.wf dflt m = true) :
    Memory.wf dflt (Memory.write dflt m a v) = true :=
  Memory.wfAbove_write h (by simp [aboveBound])

/-- The memory that lists nothing, which reset leaves, is in canonical form. -/
theorem Memory.wf_nil : Memory.wf dflt [] = true := rfl

theorem State.ofConfig_cfg_wf (c : Config) :
    Memory.wf (resetByte c) (State.ofConfig c).cfg = true := rfl

theorem Memory.read_write_same_above {lo : Option Nat} {m : Memory} (a : Nat) (v : Byte)
    (h : Memory.wfAbove dflt lo m = true) :
    Memory.read dflt (Memory.write dflt m a v) a = v := by
  induction m generalizing lo with
  | nil => by_cases hv : v = dflt a <;> simp [Memory.write, Memory.read, hv]
  | cons cell rest ih =>
    obtain ⟨b, w⟩ := cell
    have hc := Memory.wfAbove_cons.1 h
    by_cases hlt : a < b
    · by_cases hv : v = dflt a
      · have : Memory.read dflt rest a = dflt a := Memory.read_below hc.2.2 (by omega)
        simp [Memory.write, Memory.read, hlt, hv, this, Nat.ne_of_lt hlt]
      · simp [Memory.write, Memory.read, hlt, hv]
    · by_cases heq : a = b
      · subst heq
        by_cases hv : v = dflt a
        · simpa [Memory.write, hv] using Memory.read_below hc.2.2 (Nat.le_refl a)
        · simp [Memory.write, Memory.read, hv]
      · simpa [Memory.write, Memory.read, hlt, heq] using ih hc.2.2

/-- A read after a write to the same address gives the byte written. -/
theorem Memory.read_write_same {m : Memory} (a : Nat) (v : Byte) (h : Memory.wf dflt m = true) :
    Memory.read dflt (Memory.write dflt m a v) a = v :=
  Memory.read_write_same_above a v h

/-- A write leaves every other address alone. -/
theorem Memory.read_write_other {m : Memory} {a b : Nat} (v : Byte) (hab : b ≠ a) :
    Memory.read dflt (Memory.write dflt m a v) b = Memory.read dflt m b := by
  induction m with
  | nil => by_cases hv : v = dflt a <;> simp [Memory.write, Memory.read, hv, hab]
  | cons cell rest ih =>
    obtain ⟨x, w⟩ := cell
    by_cases hlt : a < x
    · by_cases hv : v = dflt a <;> simp [Memory.write, Memory.read, hlt, hv, hab]
    · by_cases heq : a = x
      · subst heq
        by_cases hv : v = dflt a <;> simp [Memory.write, Memory.read, hv, hab]
      · simp [Memory.write, Memory.read, hlt, heq, ih]

/-- A write lists no address but the one written and those already listed. -/
theorem Memory.mem_write {m : Memory} {a : Nat} {v : Byte} {cell : Host.Cell}
    (h : cell ∈ Memory.write dflt m a v) : cell = (a, v) ∨ cell ∈ m := by
  induction m with
  | nil =>
    by_cases hv : v = dflt a <;> simp_all [Memory.write]
  | cons head rest ih =>
    obtain ⟨x, w⟩ := head
    unfold Memory.write at h
    split at h
    · split at h
      · exact .inr h
      · exact List.mem_cons.1 h
    · split at h
      · split at h
        · exact .inr (List.mem_cons_of_mem _ h)
        · exact (List.mem_cons.1 h).imp_right (List.mem_cons_of_mem _)
      · rcases List.mem_cons.1 h with h | h
        · exact .inr (h ▸ List.mem_cons_self)
        · exact (ih h).imp_right (List.mem_cons_of_mem _)

/-- `cfg[a]` after `cfg[a] <- v`. -/
theorem State.cfgByte_setCfgByte_same {s : State} (a : Nat) (v : Byte)
    (h : Memory.wf (resetByte s.config) s.cfg = true) : (s.setCfgByte a v).cfgByte a = v :=
  Memory.read_write_same a v h

/-- `cfg[b]` after `cfg[a] <- v` for another `b`. -/
theorem State.cfgByte_setCfgByte_other {s : State} {a b : Nat} (v : Byte) (hab : b ≠ a) :
    (s.setCfgByte a v).cfgByte b = s.cfgByte b :=
  Memory.read_write_other v hab

end Sys2Proof.Machine
end

