-- ==== Sys2Proof/Laws/PerInstr.lean ====
section
/-! SUPPORT. Families of statements made once per command. -/

namespace Sys2Proof.Laws.PortBit

open Sys2Proof

/-- Bit 19 of a command's word says its port: 0 the bus port, 1 the register port
(30_encoding.md R81). -/
def Statement (i : Instr) : Prop := (encode i).getLsbD 19 = i.onRegisterPort

/-- Bit 19 of a word is the top bit of its OP field. -/
theorem cmdWord_bit19 (op : BitVec 4) (a b : Byte) :
    (cmdWord op a b).getLsbD 19 = op.getLsbD 3 := by
  rw [cmdWord_getLsbD]
  rfl

theorem startW (a : Byte) : Statement (.startW a) :=
  (cmdWord_bit19 _ _ _).trans rfl

theorem startR (a : Byte) : Statement (.startR a) :=
  (cmdWord_bit19 _ _ _).trans rfl

theorem byte (b : Byte) : Statement (.byte b) :=
  (cmdWord_bit19 _ _ _).trans rfl

theorem ack : Statement .ack :=
  (cmdWord_bit19 _ _ _).trans rfl

theorem nackStop : Statement .nackStop :=
  (cmdWord_bit19 _ _ _).trans rfl

theorem stop : Statement .stop :=
  (cmdWord_bit19 _ _ _).trans rfl

theorem busMalformed : Statement .busMalformed :=
  (cmdWord_bit19 _ _ _).trans rfl

theorem readByte (r : Byte) : Statement (.readByte r) :=
  (cmdWord_bit19 _ _ _).trans rfl

theorem writeByte (r v : Byte) : Statement (.writeByte r v) :=
  (cmdWord_bit19 _ _ _).trans rfl

theorem regUnrecognized : Statement .regUnrecognized :=
  (cmdWord_bit19 _ _ _).trans rfl

end Sys2Proof.Laws.PortBit
end

