-- ==== Sys2Proof/Tests/Slice0.lean ====
section
/-! SUPPORT. The implementer's own tests. Expected results are those of spec/95_test_vectors.md and
spec/96_test_programs.md (vector ids in the comments), never the model's own answers. -/

namespace Sys2Proof.Tests

open Sys2Proof Sys2Proof.Machine

/-! ## Small states and what to look at -/

/-- A state of the reference block with a session. -/
def inSession (f : Fsm) (p : Option Nat) (d : Option Direction) : State :=
  { State.reset with fsm := f, ptr := p, dir := d }

/-- REGISTER_SELECT. -/
def selecting : State := inSession .registerSelect none (some .write)

/-- WRITE_ACTIVE with the pointer at `p`. -/
def writingAt (p : Nat) : State := inSession .writeActive (some p) (some .write)

/-- READ_ACTIVE with the pointer at `p`. -/
def readingAt (p : Nat) : State := inSession .readActive (some p) (some .read)

/-- Acquisition on, started at `t` by a write of 0x03 to PWR_MGMT. -/
def enabledAt (t : Time) (s : State) : State :=
  { s with last := some t, cfg := [(0x1F, 0x03#8)] }

/-- The block with WRITE_PATH_EN = 0. -/
def withoutWritePath (s : State) : State :=
  { s with config := { s.config with writePathEn := false } }

/-- One step on one command word at one time. -/
def after (s : State) (t : Time) (w : CmdWord) : Result :=
  step { s with inbox := [.command t w] }

/-- One view of the next state; `none` if there is none. -/
def seen {α : Type} (view : State → α) : Result → Option α
  | .next t => some (view t)
  | .fault _ => none
  | .refused _ => none

/-- Response, protocol state and pointer: the three entries of a cell of the matrix of part 2.1. -/
def cell (t : State) : Option Rsp × Fsm × Option Nat := (t.rsp, t.fsm, t.ptr)

/-- Whether an outcome is the fault of a halted block. -/
def isHalted : Result → Bool
  | .next _ => false
  | .fault r => r == .halted
  | .refused _ => false

/-- Whether an outcome is the fault of a missing pointer. -/
def isNoPointer : Result → Bool
  | .next _ => false
  | .fault r => r == .noPointer
  | .refused _ => false

/-- Whether an outcome is the refusal of an ill-formed configuration. -/
def isConfigRefused : Result → Bool
  | .next _ => false
  | .fault _ => false
  | .refused r => r == .illFormedConfig

/-! ## Decoding: words written out from 30_encoding.md R83, and part 2.4 -/

theorem test_decode_startW : decode 0b0001_01101000_00000000#20 = .startW 0x68#8 := by decide
theorem test_decode_startR : decode 0b0010_01101000_00000000#20 = .startR 0x68#8 := by decide
theorem test_decode_byte : decode 0b0011_10101011_00000000#20 = .byte 0xAB#8 := by decide
theorem test_decode_ack : decode 0b0100_00000000_00000000#20 = .ack := by decide
theorem test_decode_nackStop : decode 0b0101_00000000_00000000#20 = .nackStop := by decide
theorem test_decode_stop : decode 0b0110_00000000_00000000#20 = .stop := by decide
theorem test_decode_readByte : decode 0b1000_00111001_00000000#20 = .readByte 0x39#8 := by decide
theorem test_decode_writeByte :
    decode 0b1001_00011111_00000011#20 = .writeByte 0x1F#8 0x03#8 := by decide
theorem test_decode_busMalformed : decode 0b0111_00000000_00000000#20 = .busMalformed := by decide
theorem test_decode_regUnrecognized :
    decode 0b1010_00000000_00000000#20 = .regUnrecognized := by decide

/-- Reserved words of part 2.4. -/
theorem test_decode_reserved :
    [0x16801#20, 0x268FF#20, 0x3AB01#20, 0x40001#20, 0x40100#20, 0x50100#20, 0x600FF#20, 0x00000#20,
      0x0FFFF#20, 0x7FFFF#20].all (fun w => decode w == .busMalformed) = true ∧
    [0x83901#20, 0xF1234#20, 0xFFFFF#20].all (fun w => decode w == .regUnrecognized) = true := by
  decide

theorem test_decode_table_word : decodeTableWord 24 0x91F03 = some (.writeByte 0x1F#8 0x03#8) := by
  decide

/-- Text messages of part 2.4. -/
theorem test_text_named :
    decodeText "  START\t68   WRITE \n".toList = .startW 0x68#8 ∧
    decodeText "START 0x68 READ".toList = .startR 0x68#8 ∧
    decodeText "0X1f".toList = .byte 0x1F#8 ∧ decodeText "001F".toList = .byte 0x1F#8 ∧
    decodeText "AC".toList = .byte 0xAC#8 ∧ decodeText "ACK".toList = .ack ∧
    decodeText "NACK  STOP".toList = .nackStop ∧ decodeText "STOP".toList = .stop ∧
    decodeText "READ_BYTE 0x39".toList = .readByte 0x39#8 ∧
    decodeText "WRITE_BYTE 1F 03".toList = .writeByte 0x1F#8 0x03#8 := by
  decide

/-- Malformed messages of part 2.4. -/
theorem test_text_malformed :
    ["START 168 WRITE", "start 68 WRITE", "START 68", "START 68 WRITE 00", "START 6G WRITE", "100", "0x",
      "-1", "", "   ", "ack", "ACK ACK", "NACK", "STOP NACK", "READ", "read_byte 39", "FOO 1 2"].all
      (fun m => decodeText m.toList == .busMalformed) = true ∧
    ["READ_BYTE", "READ_BYTE ZZ", "READ_BYTE 39 00", "READ_BYTE 100", "WRITE_BYTE 1F",
      "WRITE_BYTE 1F 100", "WRITE_BYTE 1F 03 00"].all
      (fun m => decodeText m.toList == .regUnrecognized) = true := by
  decide

/-- Reply words and texts of part 2.4 and program P4 step 16. -/
theorem test_response_forms :
    rspWord (.ackData 0xFF#8) = 0x2FF#12 ∧ rspWord (.rdData 0xAB#8) = 0x8AB#12 ∧
    rspText (.ackData 0x06#8) = some "ACK 06".toList ∧
    rspText (.rdData 0x3E#8) = some "0x3E".toList ∧ rspText .fatal = none := by
  decide

/-! ## Well-formed configurations: each check refuses an ill-formed one (00_scope.md R11) -/

theorem test_wf_reference : Config.reference.wf = true := by decide
theorem test_wf_empty_dataset : { Config.reference with dataset := [] }.wf = false := by decide
theorem test_wf_nonfinite_sample :
    { Config.reference with dataset := [⟨⟨0, 1⟩, ⟨1, 0⟩, ⟨1, 1⟩⟩] }.wf = false := by decide
theorem test_wf_zero_interval : { Config.reference with odrTicks := 0 }.wf = false := by decide
theorem test_wf_overlapping_addresses :
    { Config.reference with addrStatus := 0x21#8 }.wf = false := by decide
theorem test_wf_pwr_mgmt_not_listed :
    { Config.reference with configRegs := [(0x21#8, 0x06#8)] }.wf = false := by decide
theorem test_wf_axis_not_consecutive :
    { Config.reference with addrData := ⟨0x0B#8, 0x0C#8, 0x0D#8, 0x0E#8, 0x0F#8, 0x11#8⟩ }.wf = false := by
  decide
theorem test_wf_axis_wraps :
    { Config.reference with addrData := ⟨0x0B#8, 0x0C#8, 0x0D#8, 0x0E#8, 0xFF#8, 0x00#8⟩ }.wf = false := by
  decide
theorem test_wf_equal_modes : { Config.reference with modeLowNoise := 0b00#2 }.wf = false := by decide
theorem test_wf_mode_lsb : { Config.reference with modeLsb := 7 }.wf = false := by decide
theorem test_wf_reset_mode_not_disabled :
    { Config.reference with configRegs := [(0x1F#8, 0x03#8), (0x21#8, 0x06#8)] }.wf = false := by decide
theorem test_wf_narrow_pointer : { Config.reference with ptrWidth := 7 }.wf = false := by decide
theorem test_ill_formed_config_refused :
    isConfigRefused (step { State.reset with config := { Config.reference with odrTicks := 0 } }) = true := by
  decide

/-! ## Commands, one step each -/

/-- B1. -/
theorem test_startW_accepted :
    seen cell (after State.reset 0 0x16800#20) = some (some .ack, .registerSelect, none) := by decide
/-- B4: the address is compared whole, not shifted. -/
theorem test_startW_foreign :
    seen cell (after State.reset 0 0x1D000#20) = some (some .perr, .idle, none) := by decide
/-- B11: the first byte of a read may be STATUS, and then a sample is pulled. -/
theorem test_startR_reads_status :
    seen (fun t => (cell t, t.last, t.idx, t.data.zHigh)) (after (enabledAt 0 (writingAt 0x39)) 41 0x26800#20) =
      some ((some (.ackData 0x01#8), .readActive, some 0x3A), some 40, 1, 0x40#8) := by decide
/-- B12: no readiness check on a foreign address. -/
theorem test_startR_foreign :
    seen (fun t => (cell t, t.last)) (after (enabledAt 0 (writingAt 0x39)) 41 0x26900#20) =
      some ((some .perr, .idle, none), some 0) := by decide
/-- B6. -/
theorem test_byte_selects :
    seen cell (after selecting 0 0x3FF00#20) = some (some .ack, .writeActive, some 0xFF) := by decide
/-- B21: a fatal write through the bus port keeps the pointer and the session. -/
theorem test_byte_fatal :
    seen (fun t => (cell t, t.cfgByte 0x1F, t.fatal)) (after (writingAt 0x1F) 1000 0x30200#20) =
      some ((some .fatal, .writeActive, some 0x1F), 0x02#8, true) := by decide
/-- B14: the pointer wraps. -/
theorem test_ack_wraps :
    seen cell (after (readingAt 0xFF) 0 0x40000#20) =
      some (some (.ackData 0xAB#8), .readActive, some 0x00) := by decide
/-- B16: the comparison is strict. -/
theorem test_ack_status_not_ready :
    seen (fun t => (t.rsp, t.last)) (after (enabledAt 0 (readingAt 0x39)) 40 0x40000#20) =
      some (some (.ackData 0x00#8), some 0) := by decide
/-- B18: NACK STOP reads nothing. -/
theorem test_nackStop_reads_nothing :
    seen (fun t => (cell t, t.last)) (after (enabledAt 0 (readingAt 0x39)) 41 0x50000#20) =
      some ((some .eot, .idle, none), some 0) := by decide
/-- B27. -/
theorem test_nackStop_not_in_write :
    seen cell (after (writingAt 0x21) 0 0x50000#20) = some (some .perr, .idle, none) := by decide
/-- B25. -/
theorem test_stop_ends_write :
    seen cell (after (writingAt 0x21) 0 0x60000#20) = some (some .eot, .idle, none) := by decide
/-- B29: with WRITE_PATH_EN = 0. -/
theorem test_stop_without_write_path :
    seen cell (after (withoutWritePath (writingAt 0x1F)) 0 0x60000#20) = some (some .perr, .idle, none) := by
  decide
/-- P1 step 3. -/
theorem test_busMalformed_aborts :
    seen cell (after (writingAt 0x0B) 0 0x00000#20) = some (some .perr, .idle, none) := by decide
/-- G21: the session is untouched. -/
theorem test_readByte_keeps_session :
    seen (fun t => (cell t, t.dir)) (after (readingAt 0x0C) 0 0x82100#20) =
      some ((some (.rdData 0x06#8), .readActive, some 0x0C), some .read) := by decide
/-- P6 step 4: an overdue sample; the second row of the dataset. -/
theorem test_readByte_status_pulls :
    seen (fun t => (t.rsp, t.last, t.idx, t.data)) (after { enabledAt 40 State.reset with idx := 1 } 130 0x83900#20) =
      some (some (.rdData 0x01#8), some 80, 0,
        ⟨0x20#8, 0x00#8, 0xE0#8, 0x00#8, 0x3E#8, 0xB8#8⟩) := by decide
/-- W8: disable. -/
theorem test_writeByte_disables :
    seen (fun t => (t.rsp, t.cfg, t.last)) (after (enabledAt 5 State.reset) 77 0x91F00#20) =
      some (some .success, [], none) := by decide
/-- W13: after a fatal write `last` keeps its value. -/
theorem test_writeByte_fatal :
    seen (fun t => (t.rsp, t.cfgByte 0x1F, t.last, t.fatal)) (after (enabledAt 5 State.reset) 77 0x91FFE#20) =
      some (some .fatal, 0xFE#8, some 5, true) := by decide
/-- The last row of part 2.1. -/
theorem test_regUnrecognized_changes_nothing :
    seen cell (after (writingAt 0x21) 0 0xFFFFF#20) = some (some .cmdError, .writeActive, some 0x21) := by
  decide
/-- P2 step 4: a halted block has no step. -/
theorem test_halted_has_no_step :
    isHalted (after { State.reset with fatal := true } 1 0x81F00#20) = true := by decide
/-- No reachable state: READ_ACTIVE without a pointer (log 8). -/
theorem test_no_pointer : isNoPointer (after (inSession .readActive none (some .read)) 0 0x40000#20) = true := by
  decide
/-- 70_reset_and_hazards.md R260: reset leaves the halted state. -/
theorem test_reset_event :
    seen (fun t => (cell t, t.fatal, t.cfgByte 0x1F))
      (step { enabledAt 5 (writingAt 0x1F) with fatal := true, inbox := [.reset] }) =
      some ((none, .idle, none), false, 0x00#8) := by decide

/-! ## The encoding: part 2.5 -/

theorem test_encode16_vectors :
    [((-1, 1), 0xC000#16), ((32767, 16384), 0x7FFF#16), ((2, 1), 0x8000#16), ((-2, 1), 0x8000#16),
      ((-32769, 16384), 0x7FFF#16), ((4, 1), 0x0000#16), ((-1, 1000), 0xFFF0#16), ((49, 50), 0x3EB8#16),
      ((-49, 50), 0xC148#16), ((981, 1000), 0x3EC9#16), ((1, 32768), 0x0000#16), ((3, 32768), 0x0002#16),
      ((5, 32768), 0x0002#16), ((-1, 32768), 0x0000#16), ((-3, 32768), 0xFFFE#16),
      ((-5, 32768), 0xFFFE#16), ((3, 65536), 0x0001#16)].all
      (fun (v, raw) => encode16 Config.reference ⟨v.1, v.2⟩ == raw) = true := by decide

/-- The column "half away". -/
theorem test_encode16_half_away :
    [((1, 32768), 0x0001#16), ((3, 32768), 0x0002#16), ((5, 32768), 0x0003#16), ((-1, 32768), 0xFFFF#16),
      ((-5, 32768), 0xFFFD#16)].all
      (fun (v, raw) =>
        encode16 { Config.reference with roundTies := .awayFromZero } ⟨v.1, v.2⟩ == raw) = true := by
  decide

/-! ## A fetched word runs first -/

theorem test_withFetchWord_runs :
    seen cell (step (State.reset.withFetchWord 24 0x16800)) = some (some .ack, .registerSelect, none) := by
  decide

/-! ## Witnesses

For every statement with hypotheses, a concrete state and operands that meet them together, and one for each
of its clauses: `test_witness_<name of the statement>`. -/

/-- A halted block, as a fatal write through the bus port leaves it (program P11). -/
def haltedBlock : State :=
  { writingAt 0x1F with cfg := [(0x1F, 0x01#8)], fatal := true }

theorem test_good_selecting : GoodState selecting := by decide

theorem test_good_writing : GoodState (writingAt 0xFF) := by decide

theorem test_good_reading : GoodState (enabledAt 0 (readingAt 0x39)) := by decide

theorem test_good_halted : GoodState haltedBlock := by decide

theorem test_witness_NamedCommandHasOneWord :
    (decode 0x10000#20).named = true ∧ (decode 0x9FFFF#20).named = true := by decide

theorem test_witness_ReservedWordsAreErrors :
    decode 0x70000#20 = .busMalformed ∧ decode 0x60001#20 = .busMalformed ∧
      decode 0xFFFFF#20 = .regUnrecognized ∧ decode 0x80001#20 = .regUnrecognized ∧
      (readingAt 0).fatal = false := by decide

theorem test_witness_ResponseWordsOfTable : rspWord (.rdData 0#8) = rspWord (.rdData 0#8) := rfl

theorem test_witness_StepRunsDecodedCommand :
    let s := { State.reset with inbox := [.command 7 0x16800#20, .reset] }
    s.config.wf = true ∧ s.inbox = .command 7 0x16800#20 :: [.reset] := by decide

theorem test_witness_ResetEventRestoresEverything :
    let s := { haltedBlock with inbox := [.reset] }
    s.config.wf = true ∧ s.inbox = .reset :: [] ∧
      (0x21#8, 0x06#8) ∈ s.config.configRegs := by decide

theorem test_witness_StepWaitsWithoutInput :
    State.reset.config.wf = true ∧ State.reset.inbox = [] ∧ State.reset.fatal = false := by decide

theorem test_witness_OnlyWellFormedConfigsRun :
    Config.reference.ptrWidth = 8 ∧ (0x1F#8, 0x00#8) ∈ Config.reference.configRegs ∧
      { Config.reference with odrTicks := 0 }.wf = false := by decide

theorem test_witness_ExecDefinedExactlyWhenRunning :
    SessionInv (readingAt 0) ∧ (readingAt 0).fatal = false ∧ SessionInv haltedBlock ∧
      haltedBlock.fatal = true := by decide

theorem test_witness_OnlyResetLeavesHaltedState :
    haltedBlock.fatal = true ∧ ∃ t, step { haltedBlock with inbox := [.reset] } = .next t :=
  ⟨rfl, _, rfl⟩

theorem test_witness_ResetValues :
    Config.reference.wf = true ∧ (0x1F#8, 0x00#8) ∈ Config.reference.configRegs ∧
      category Config.reference 0x00 = .unmapped ∧ category Config.reference 0xFF = .unmapped := by decide

theorem test_witness_StartWOpensOnlyFromIdle :
    State.reset.fatal = false ∧ State.reset.fsm = .idle ∧ State.reset.config.devAddr = 0x68#8 ∧
      (readingAt 0).fatal = false ∧ (readingAt 0).fsm ≠ .idle := by decide

theorem test_witness_ByteSelectsRegister :
    selecting.fatal = false ∧ selecting.fsm = .registerSelect ∧ State.reset.fsm = .idle ∧
      (readingAt 0).fsm = .readActive := by decide

theorem test_witness_ByteWritesAtPointer :
    (writingAt 0xFF).fatal = false ∧ (writingAt 0xFF).fsm = .writeActive ∧
      (writingAt 0xFF).ptr = some 0xFF ∧ (writingAt 0xFF).config.writePathEn = true ∧
      (withoutWritePath (writingAt 0x1F)).config.writePathEn = false ∧
      (regWrite 0x1F 0x02#8 0 (writingAt 0x1F)).fatal = true ∧
      (regWrite 0x1F 0x03#8 0 (writingAt 0x1F)).fatal = false := by decide

theorem test_witness_StartRReadsFirstByte :
    (writingAt 0xFF).fatal = false ∧ (writingAt 0xFF).fsm = .writeActive ∧
      (writingAt 0xFF).config.devAddr = 0x68#8 ∧ (writingAt 0xFF).ptr = some 0xFF ∧
      ¬((writingAt 0xFF).fsm = .writeActive ∧ 0x69#8 = (writingAt 0xFF).config.devAddr) ∧
      ¬(State.reset.fsm = .writeActive ∧ 0x68#8 = State.reset.config.devAddr) := by decide

theorem test_witness_AckReadsNextByte :
    (readingAt 0xFF).fatal = false ∧ (readingAt 0xFF).fsm = .readActive ∧
      (readingAt 0xFF).ptr = some 0xFF ∧ (writingAt 0).fsm ≠ .readActive := by decide

theorem test_witness_NackStopEndsRead :
    (readingAt 0).fatal = false ∧ (readingAt 0).fsm = .readActive ∧ (writingAt 0).fatal = false := by
  decide

theorem test_witness_StopEndsWriteOnlyIfEnabled :
    (writingAt 0).fatal = false ∧ (writingAt 0).fsm = .writeActive ∧
      (writingAt 0).config.writePathEn = true ∧
      (withoutWritePath (writingAt 0)).config.writePathEn = false := by decide

theorem test_witness_BusMalformedAborts : (readingAt 0).fatal = false := by decide

theorem test_witness_AbortExactlyOutsideTable :
    (Instr.byte 0#8).onRegisterPort = false ∧ selecting.fatal = false ∧
      accepted (.byte 0#8) selecting = true ∧ accepted (.byte 0#8) State.reset = false := by decide

theorem test_witness_accepted_step :
    ∃ t, exec (.byte 0#8) selecting = .next t := ⟨_, rfl⟩

theorem test_witness_FsmTransitionsOfTable :
    (Instr.stop.onRegisterPort = false ∧ GoodState (writingAt 0)) ∧
      ∃ t, exec .stop (writingAt 0) = .next t ∧ t.fsm = .idle :=
  ⟨by decide, _, rfl, rfl⟩

theorem test_witness_NothingOutlivesSession :
    (∃ t, exec .nackStop (readingAt 0xFF) = .next t ∧ t.rsp = some .eot) ∧
      ∃ t, exec (.startR 0x68#8) State.reset = .next t ∧ State.reset.fsm = .idle :=
  ⟨⟨_, rfl, rfl⟩, _, rfl, rfl⟩

theorem test_witness_PointerAdvancesByOne :
    SessionInv (readingAt 0xFF) ∧ readTarget .ack (readingAt 0xFF) = some 0xFF ∧
      (∃ t, exec .ack (readingAt 0xFF) = .next t ∧ t.fatal = false) ∧
      writeTarget (.byte 0x12#8) (writingAt 0xFF) = some (0xFF, 0x12#8) ∧
      (∃ t, exec (.byte 0x02#8) (writingAt 0x1F) = .next t ∧ t.fatal = true) ∧
      SessionInv selecting ∧ readTarget (.byte 0xFF#8) selecting = none ∧
      writeTarget (.byte 0xFF#8) selecting = none ∧ ∃ t, exec (.byte 0xFF#8) selecting = .next t :=
  ⟨by decide, by decide, ⟨_, rfl, by decide⟩, by decide, ⟨_, rfl, by decide⟩, by decide, by decide,
    by decide, _, rfl⟩

theorem test_witness_BurstReadLaw :
    selecting.fatal = false ∧ selecting.fsm = .registerSelect := by decide

theorem test_witness_EveryAddressHasOneCategory :
    Config.reference.wf = true ∧ category Config.reference 0x1F = .config ∧
      category Config.reference 0x39 = .status ∧ category Config.reference 0x0B = .data .xHigh ∧
      category Config.reference 0x10 = .data .zLow ∧ category Config.reference 0x11 = .unmapped ∧
      category Config.reference 0x100 = .unmapped := by decide

theorem test_witness_RegReadByCategory :
    category State.reset.config 0x21 = .config ∧ category State.reset.config 0x39 = .status ∧
      category State.reset.config 0x10 = .data .zLow ∧ category State.reset.config 0 = .unmapped := by
  decide

theorem test_witness_RegWriteStoresOneByte :
    CfgInv haltedBlock ∧ CfgInv State.reset ∧ category State.reset.config 0x1F = .config ∧
      category State.reset.config 0x21 = .config ∧ category State.reset.config 0x39 ≠ .config := by decide

theorem test_witness_PwrWriteByModeField :
    modeField Config.reference 0xFF#8 = Config.reference.modeLowNoise ∧
      modeField Config.reference 0xFC#8 ≠ Config.reference.modeLowNoise ∧
      modeField Config.reference 0xFC#8 = Config.reference.modeDisabled ∧
      modeField Config.reference 0xFE#8 ≠ Config.reference.modeLowNoise ∧
      modeField Config.reference 0xFE#8 ≠ Config.reference.modeDisabled := by decide

theorem test_witness_ReadByteReturnsRegister : State.reset.fatal = false := by decide

theorem test_witness_WriteByteAnswersSuccessOrFatal :
    State.reset.fatal = false ∧ (regWrite 0x1F 0x01#8 77 State.reset).fatal = true ∧
      (regWrite 0x1F 0x00#8 77 State.reset).fatal = false := by decide

theorem test_witness_RegUnrecognizedChangesNothing : (readingAt 0).fatal = false := by decide

theorem test_witness_ReadOnlyWritesAreIgnored :
    (writingAt 0x39).fatal = false ∧ category (writingAt 0x39).config (0x0B#8).toNat ≠ .config ∧
      category (writingAt 0x39).config 0x39 ≠ .config ∧ (writingAt 0x39).fsm = .writeActive ∧
      (writingAt 0x39).config.writePathEn = true ∧ (writingAt 0x39).ptr = some 0x39 := by decide

theorem test_witness_StoresOnlyAtWriteTarget :
    writeTarget (.writeByte 0x21#8 0x5A#8) State.reset = some (0x21, 0x5A#8) ∧
      ∃ t, exec (.writeByte 0x21#8 0x5A#8) State.reset = .next t :=
  ⟨by decide, _, rfl⟩

theorem test_witness_OnlyAccessesTouchRegisters :
    readTarget .stop (writingAt 0) = none ∧ writeTarget .stop (writingAt 0) = none ∧
      (∃ t, exec .stop (writingAt 0) = .next t) ∧ accepted .ack (writingAt 0x39) = false ∧
      ∃ t, exec .ack (writingAt 0x39) = .next t :=
  ⟨by decide, by decide, ⟨_, rfl⟩, by decide, _, rfl⟩

theorem test_witness_RegisterPortIgnoresSession :
    (Instr.readByte 0x39#8).onRegisterPort = true ∧
      ∃ t, exec (.readByte 0x39#8) (readingAt 0x0C) = .next t :=
  ⟨by decide, _, rfl⟩

/-- Between the write and the read: another configuration register, STATUS, and a bus session. -/
theorem test_witness_ConfigWriteReadsBack :
    CfgInv State.reset ∧ category State.reset.config 0x1F = .config ∧
      (regWrite 0x1F 0x03#8 1000 State.reset).fatal = false ∧
      (execWhile (sparesRegister 0x1F)
        [(1041, .readByte 0x39#8), (1041, .writeByte 0x21#8 0x00#8), (1042, .startW 0x68#8)]
        (regWrite 0x1F 0x03#8 1000 State.reset)).isSome = true := by decide

theorem test_witness_FatalOnlyByUnsupportedMode :
    GoodState (writingAt 0x1F) ∧ (writingAt 0x1F).fatal = false ∧
      writeTarget (.byte 0x01#8) (writingAt 0x1F) = some (0x1F, 0x01#8) ∧
      ∃ t, exec (.byte 0x01#8) (writingAt 0x1F) = .next t ∧ t.fatal = true :=
  ⟨by decide, by decide, by decide, _, rfl, by decide⟩

theorem test_witness_ResponsesByPort :
    (∃ t, exec .ack (readingAt 0) = .next t) ∧ (∃ t, exec .regUnrecognized (readingAt 0) = .next t) ∧
      ∃ t, exec (.writeByte 0x1F#8 0x02#8) State.reset = .next t ∧ t.rsp = some .fatal :=
  ⟨⟨_, rfl⟩, ⟨_, rfl⟩, _, rfl, by decide⟩

theorem test_witness_ReadinessCheckIsStrict :
    State.reset.last = none ∧ (enabledAt 1000 State.reset).last = some 1000 ∧
      1000 + (enabledAt 1000 State.reset).config.odrTicks < 1041 ∧
      ¬1000 + (enabledAt 1000 State.reset).config.odrTicks < 1040 := by decide

theorem test_witness_PullStoresBigEndianSample :
    State.reset.config.dataset[State.reset.idx]? = some ⟨⟨0, 1⟩, ⟨0, 1⟩, ⟨1, 1⟩⟩ := by decide

theorem test_witness_RoundIsNearest :
    (⟨-3, 2⟩ : Ratio).den ≠ 0 ∧ |((-3 : Int) : ℚ) / ((2 : Nat) : ℚ) - (roundRatio .toEven ⟨-3, 2⟩ : ℚ)| = 1 / 2 := by
  have h : roundRatio .toEven ⟨-3, 2⟩ = -2 := by decide
  rw [h]
  norm_num

theorem test_witness_EncodingDependsOnValueOnly :
    (⟨1, 2⟩ : Ratio).den ≠ 0 ∧ (⟨2, 4⟩ : Ratio).den ≠ 0 ∧
      ((1 : Int) : ℚ) / ((2 : Nat) : ℚ) = ((2 : Int) : ℚ) / ((4 : Nat) : ℚ) := by
  norm_num

theorem test_witness_EncodingWrapsByFour : Config.reference.roundTies = .toEven := by decide

theorem test_witness_OnePullPerCheck :
    (1 : Nat) ≤ 3 ∧ (enabledAt 0 State.reset).last = some 0 ∧
      0 + 3 * (enabledAt 0 State.reset).config.odrTicks < 130 ∧
      130 ≤ 0 + (3 + 1) * (enabledAt 0 State.reset).config.odrTicks := by decide

theorem test_witness_PullsCycleThroughDataset :
    State.reset.idx = 0 ∧ State.reset.config.dataset[5 % State.reset.config.dataset.length]? =
      some ⟨⟨1, 2⟩, ⟨-1, 2⟩, ⟨49, 50⟩⟩ := by decide

theorem test_witness_ScheduleStaysOnGrid :
    let s := enabledAt 0 State.reset
    IdxInv s ∧ s.last = some 0 ∧
      (execWhile (sparesRegister s.config.addrPwrMgmt.toNat)
        [(130, .readByte 0x39#8), (130, .readByte 0x39#8)] s).map State.last = some (some 80) := by decide

theorem test_witness_SamplesMoveOnlyByStatusRead :
    let s := enabledAt 0 (readingAt 0x39)
    ∃ t, exec .ack { s with now := 41 } = .next t ∧ t.data ≠ s.data ∧ t.idx ≠ s.idx :=
  ⟨_, rfl, by decide, by decide⟩

theorem test_witness_DataStableBetweenStatusReads :
    (execWhile (leavesUnread State.reset.config.addrStatus.toNat)
      [(0, .readByte 0x0B#8), (1, .writeByte 0x39#8 0x01#8)] (enabledAt 0 State.reset)).isSome = true := by
  decide

theorem test_witness_TimeMattersOnlyToScheduleAccesses :
    readTarget (.writeByte 0x1F#8 0x00#8) State.reset ≠ some State.reset.config.addrStatus.toNat ∧
      writeTarget (.writeByte 0x1F#8 0x00#8) State.reset =
        some (State.reset.config.addrPwrMgmt.toNat, 0x00#8) ∧
      modeField State.reset.config 0x00#8 ≠ State.reset.config.modeLowNoise := by decide

theorem test_witness_SessionInvariantKept :
    SessionInv State.reset ∧ ∃ t, step { State.reset with inbox := [.command 0 0x16800#20] } = .next t :=
  ⟨by decide, _, rfl⟩

theorem test_witness_ResetStateIsGood : Config.reference.wf = true := by decide

theorem test_witness_GoodStatesStepToGoodStates :
    GoodState { writingAt 0x1F with inbox := [.command 7 0x30100#20] } ∧
      ∃ t, step { writingAt 0x1F with inbox := [.command 7 0x30100#20] } = .next t :=
  ⟨by decide, _, rfl⟩

theorem test_witness_StoredModeIsPowerState :
    GoodState { writingAt 0x1F with inbox := [.command 7 0x30300#20] } ∧
      ∃ t, step { writingAt 0x1F with inbox := [.command 7 0x30300#20] } = .next t ∧ t.fatal = false ∧
        t.last.isSome = true :=
  ⟨by decide, _, rfl, by decide, by decide⟩

theorem test_witness_ConfigurationNeverChanges :
    ∃ t, step { State.reset with inbox := [.command 0 0x16800#20, .reset] } = .next t := ⟨_, rfl⟩

theorem test_witness_ScheduleNeverAheadOfTime :
    let s := { enabledAt 1000 State.reset with
      now := 1000, inbox := [.command 1041 0x83900#20, .reset, .command 1041 0x40000#20] }
    timesRise s.now s.inbox = true ∧ (∀ x ∈ s.last, x ≤ s.now) ∧ ∃ t, step s = .next t :=
  ⟨by decide, by decide, _, rfl⟩

end Sys2Proof.Tests
end

/-! # Proofs for the statements on 00_scope.md

First the facts about the model that the proofs share, in the order of the definitions they speak of:
what an input gives the step, when a command has a next state, what a command does to the schedule,
each check of a configuration as a proposition, and rounding as a function of the rational alone.
Then the statements. -/

namespace Sys2Proof.Machine

open Sys2Proof

/-! ## The input a step takes -/

theorem fetch_of_inbox_nil {s : State} (h : s.inbox = []) : fetch s = .nothing := by
  simp [fetch, h]

theorem fetch_of_inbox_command {s : State} {now : Time} {w : CmdWord} {rest : List Input}
    (h : s.inbox = .command now w :: rest) :
    fetch s = .command (decode w) { s with inbox := rest, now := now } := by
  simp [fetch, h]

theorem step_of_fetch_nothing {s : State} (hwf : s.config.wf = true) (h : fetch s = .nothing) :
    step s = idleStep s := by
  simp [step, hwf, h]

theorem step_of_fetch_command {s u : State} {i : Instr} (hwf : s.config.wf = true)
    (h : fetch s = .command i u) : step s = exec i u := by
  simp [step, hwf, h]

theorem step_of_not_wf {s : State} (h : s.config.wf = false) :
    step s = .refused .illFormedConfig := by
  simp [step, h]

/-! ## When a command has a next state -/

/-- The states in which a bus access is made have a register selected (10_state.md R24). -/
theorem SessionInv.exists_ptr {s : State} (h : SessionInv s)
    (hfsm : s.fsm = .writeActive ∨ s.fsm = .readActive) : ∃ p, s.ptr = some p := by
  rw [← Option.isSome_iff_exists]
  rcases h with ⟨hf, -, -⟩ | ⟨hf, -, -⟩ | ⟨-, hp, -⟩ | ⟨-, hp, -⟩
  · simp [hf] at hfsm
  · simp [hf] at hfsm
  · exact hp
  · exact hp

theorem exists_readNext {s : State} (h : ∃ p, s.ptr = some p) : ∃ t, readNext s = .next t := by
  obtain ⟨p, hp⟩ := h
  exact ⟨_, readNext_next.2 ⟨p, hp, rfl⟩⟩

theorem exists_writeNext {b : Byte} {s : State} (h : ∃ p, s.ptr = some p) :
    ∃ t, writeNext b s = .next t := by
  obtain ⟨p, hp⟩ := h
  exact ⟨_, writeNext_next.2 ⟨p, hp, rfl⟩⟩

/-- A running block with the session invariant completes every command: the one way to stop is an
access without a pointer, and the cells that access a register have one. -/
theorem exists_exec_of_running (i : Instr) {s : State} (hs : SessionInv s) (hf : s.fatal = false) :
    ∃ t, exec i s = .next t := by
  cases i with
  | startW a =>
    simp only [exec, execStartW, unlessHalted_running _ hf]
    split
    · split <;> exact ⟨_, rfl⟩
    all_goals exact ⟨_, rfl⟩
  | startR a =>
    simp only [exec, execStartR, unlessHalted_running _ hf]
    split
    case h_3 hfsm =>
      split
      · exact exists_readNext (s := beginRead s) (hs.exists_ptr (.inl hfsm))
      · exact ⟨_, rfl⟩
    all_goals exact ⟨_, rfl⟩
  | byte b =>
    simp only [exec, execByte, unlessHalted_running _ hf]
    split
    case h_3 hfsm =>
      split
      · exact exists_writeNext (hs.exists_ptr (.inl hfsm))
      · exact ⟨_, rfl⟩
    all_goals exact ⟨_, rfl⟩
  | ack =>
    simp only [exec, execAck, unlessHalted_running _ hf]
    split
    case h_4 hfsm => exact exists_readNext (hs.exists_ptr (.inr hfsm))
    all_goals exact ⟨_, rfl⟩
  | nackStop =>
    simp only [exec, execNackStop, unlessHalted_running _ hf]
    split <;> exact ⟨_, rfl⟩
  | stop =>
    simp only [exec, execStop, unlessHalted_running _ hf]
    split
    case h_3 => split <;> exact ⟨_, rfl⟩
    all_goals exact ⟨_, rfl⟩
  | busMalformed => exact ⟨_, unlessHalted_running _ hf⟩
  | readByte r => exact ⟨_, unlessHalted_running _ hf⟩
  | writeByte r v =>
    simp only [exec, execWriteByte, unlessHalted_running _ hf]
    split <;> exact ⟨_, rfl⟩
  | regUnrecognized => exact ⟨_, unlessHalted_running _ hf⟩

/-! ## What a command does to the schedule and to the environment -/

/-- A readiness check that pulls moves the schedule by one interval; every other read leaves it. -/
theorem regRead_last (a : Nat) (now : Time) (s : State) :
    (regRead a now s).2.last = s.last ∨
      ∃ x, s.last = some x ∧ x + s.config.odrTicks < now ∧
        (regRead a now s).2.last = some (x + s.config.odrTicks) := by
  rcases regRead_state a now s with h | ⟨-, x, hx, hdue, h⟩
  · exact .inl (by rw [h])
  · exact .inr ⟨x, hx, hdue, by rw [h]⟩

/-- A power-management write starts the schedule now, ends it or leaves it; every other write
leaves it. -/
theorem regWrite_last (a : Nat) (v : Byte) (now : Time) (s : State) :
    (regWrite a v now s).last = s.last ∨ (regWrite a v now s).last = none ∨
      (regWrite a v now s).last = some now := by
  rcases regWrite_cases a v now s with ⟨-, h⟩ | ⟨-, -, h⟩ | ⟨-, -, h⟩
  · simp [h]
  · simp [h]
  · rcases pwrWrite_cases v now (s.setCfgByte a v) with ⟨-, hp⟩ | ⟨-, -, hp⟩ | ⟨-, hp⟩ <;>
      simp [h, hp]

theorem Effect.now_eq {s t : State} {i : Instr} (h : Effect s i t) : t.now = s.now := by
  cases h <;> simp

theorem Effect.inbox_eq {s t : State} {i : Instr} (h : Effect s i t) : t.inbox = s.inbox := by
  cases h <;> simp

/-- All that a command can do to `last`: leave it, clear it, set it to the time of the command
(42_acquisition.md R190, R191), or add one interval that has elapsed (R192). -/
theorem Effect.last_cases {s t : State} {i : Instr} (h : Effect s i t) :
    t.last = s.last ∨ t.last = none ∨ t.last = some s.now ∨
      ∃ x, s.last = some x ∧ x + s.config.odrTicks < s.now ∧
        t.last = some (x + s.config.odrTicks) := by
  cases h with
  | readFirst a p => exact (regRead_last p s.now (beginRead s)).imp_right fun h => .inr (.inr h)
  | readOn p => exact (regRead_last p s.now s).imp_right fun h => .inr (.inr h)
  | portRead r => exact (regRead_last r.toNat s.now s).imp_right fun h => .inr (.inr h)
  | wrote b p => exact (regWrite_last p b s.now s).imp_right (.imp_right .inl)
  | wroteFatal b p => exact (regWrite_last p b s.now s).imp_right (.imp_right .inl)
  | portWrote r v => exact (regWrite_last r.toNat v s.now s).imp_right (.imp_right .inl)
  | portWroteFatal r v => exact (regWrite_last r.toNat v s.now s).imp_right (.imp_right .inl)
  | aborted | opened | selected | endedRead | endedWrite | portUnrecognized => exact .inl rfl

/-- A command leaves `last` no later than its own time, if it was no later before. -/
theorem Effect.last_le_now {s t : State} {i : Instr} (h : Effect s i t)
    (hlast : ∀ x ∈ s.last, x ≤ s.now) : ∀ x ∈ t.last, x ≤ t.now := by
  rw [h.now_eq]
  rcases h.last_cases with ht | ht | ht | ⟨x, -, hdue, ht⟩
  · rwa [ht]
  · simp [ht]
  · simp [ht]
  · simpa [ht] using hdue.le

theorem timesRise_command {now t : Time} {w : CmdWord} {rest : List Input} :
    timesRise now (.command t w :: rest) = true ↔ now ≤ t ∧ timesRise t rest = true := by
  simp [timesRise]

theorem timesRise_reset {now : Time} {rest : List Input} :
    timesRise now (.reset :: rest) = timesRise now rest := rfl

/-! ## Rounding as a function of the rational -/

/-- `Round` of an exact rational (42_acquisition.md R197), whatever its numerator and denominator. -/
def roundRat (ties : RoundTies) (v : ℚ) : Int :=
  if Int.fract v < 1 / 2 then ⌊v⌋ else if 1 / 2 < Int.fract v then ⌊v⌋ + 1 else roundTie ties ⌊v⌋

/-- The model's integer arithmetic computes `Round` of the rational `num / den`: the remainder it
compares is the fractional part, scaled by the denominator. -/
theorem roundRatio_eq_roundRat (ties : RoundTies) (q : Ratio) (hq : q.den ≠ 0) :
    roundRatio ties q = roundRat ties ((q.num : ℚ) / (q.den : ℚ)) := by
  have hpos : (0 : ℚ) < q.den := by exact_mod_cast Nat.pos_of_ne_zero hq
  have hfract : Int.fract ((q.num : ℚ) / (q.den : ℚ)) =
      ((q.num % (q.den : Int) : Int) : ℚ) / q.den :=
    Int.fract_div_intCast_eq_div_intCast_mod
  have hlow : Int.fract ((q.num : ℚ) / (q.den : ℚ)) < 1 / 2 ↔
      2 * (q.num % (q.den : Int)) < q.den := by
    rw [hfract, div_lt_div_iff₀ hpos two_pos, one_mul, mul_comm]
    exact_mod_cast Iff.rfl
  have hhigh : 1 / 2 < Int.fract ((q.num : ℚ) / (q.den : ℚ)) ↔
      (q.den : Int) < 2 * (q.num % (q.den : Int)) := by
    rw [hfract, div_lt_div_iff₀ two_pos hpos, one_mul, mul_comm _ (2 : ℚ)]
    exact_mod_cast Iff.rfl
  simp only [roundRatio, roundRat, hlow, hhigh, Rat.floor_intCast_div_natCast]

/-- `Encode16(v)` is the low 16 bits of `Round` of the exact product `v * 16384`
(42_acquisition.md R194). -/
theorem encode16_eq_roundRat (c : Config) (q : Ratio) (hq : q.den ≠ 0) :
    encode16 c q = BitVec.ofInt 16 (roundRat c.roundTies ((q.num : ℚ) / (q.den : ℚ) * 16384)) := by
  have hmul : (((timesInt q 16384).num : Int) : ℚ) / ((timesInt q 16384).den : ℚ) =
      (q.num : ℚ) / (q.den : ℚ) * 16384 := by
    simp only [timesInt, Int.cast_mul, Int.cast_ofNat]
    ring
  rw [encode16, roundRatio_eq_roundRat _ (timesInt q 16384) hq, hmul]

/-! ## Reset values and mode fields -/

/-- With different addresses, a listed pair gives the reset value of its address. -/
theorem resetByte_of_mem {c : Config} {a v : Byte} (hnodup : (c.configRegs.map Prod.fst).Nodup)
    (h : (a, v) ∈ c.configRegs) : resetByte c a.toNat = v := by
  have hfound : (c.configRegs.find? fun p => p.1.toNat == a.toNat).isSome = true :=
    List.find?_isSome.2 ⟨_, h, by simp⟩
  obtain ⟨p, hp⟩ := Option.isSome_iff_exists.1 hfound
  have haddr : p.1 = a := BitVec.eq_of_toNat_eq (by simpa using List.find?_some hp)
  have heq : p = (a, v) :=
    List.inj_on_of_nodup_map hnodup (List.mem_of_find?_eq_some hp) h haddr
  simp [resetByte, hp, heq]

/-- The mode field is `(v >> MODE_LSB) mod 4` (41_register_access.md R171). -/
theorem modeField_toNat (c : Config) (v : Byte) :
    (modeField c v).toNat = v.toNat / 2 ^ c.modeLsb % 4 := by
  simp [modeField, Nat.shiftRight_eq_div_pow]

end Sys2Proof.Machine

/-! ## The checks of a configuration, one proposition each (00_scope.md R11) -/

namespace Sys2Proof

theorem Config.datasetOk_iff {c : Config} : c.datasetOk = true ↔
    1 ≤ c.dataset.length ∧ ∀ p ∈ c.dataset, p.x.den ≠ 0 ∧ p.y.den ≠ 0 ∧ p.z.den ≠ 0 := by
  simp [Config.datasetOk, Ratio.finite, and_assoc, Nat.one_le_iff_ne_zero]

theorem Config.odrOk_iff {c : Config} : c.odrOk = true ↔ 1 ≤ c.odrTicks := decide_eq_true_iff

theorem Config.addrsDistinct_iff {c : Config} : c.addrsDistinct = true ↔ c.mappedAddrs.Nodup :=
  decide_eq_true_iff

theorem Config.pwrMgmtListed_iff {c : Config} :
    c.pwrMgmtListed = true ↔ ∃ v, (c.addrPwrMgmt, v) ∈ c.configRegs := by
  simp [Config.pwrMgmtListed]

theorem Config.axisOk_iff {high low : Byte} :
    Config.axisOk high low = true ↔ low.toNat = high.toNat + 1 ∧ high.toNat ≤ 0xFE := by
  simp [Config.axisOk]

theorem Config.modeOk_iff {c : Config} :
    c.modeOk = true ↔ c.modeLowNoise ≠ c.modeDisabled ∧ c.modeLsb ≤ 6 := by
  simp [Config.modeOk]

theorem Config.configRegs_nodup {c : Config} (h : c.mappedAddrs.Nodup) :
    (c.configRegs.map Prod.fst).Nodup :=
  (List.nodup_append.1 h).1

/-- Item (g): the one listed reset value of the power-management register has the mode field
MODE_DISABLED. -/
theorem Config.resetModeOk_iff {c : Config} (hnodup : c.mappedAddrs.Nodup)
    (hlisted : ∃ v, (c.addrPwrMgmt, v) ∈ c.configRegs) :
    c.resetModeOk = true ↔ ∀ v, (c.addrPwrMgmt, v) ∈ c.configRegs →
      v.toNat / 2 ^ c.modeLsb % 4 = c.modeDisabled.toNat := by
  have hreset {v : Byte} (hv : (c.addrPwrMgmt, v) ∈ c.configRegs) :
      Machine.resetByte c c.addrPwrMgmt.toNat = v :=
    Machine.resetByte_of_mem (Config.configRegs_nodup hnodup) hv
  simp only [Config.resetModeOk, beq_iff_eq, ← BitVec.toNat_inj, Machine.modeField_toNat]
  constructor
  · intro h v hv
    rwa [hreset hv] at h
  · intro h
    obtain ⟨v, hv⟩ := hlisted
    rw [hreset hv]
    exact h v hv

/-- With the pointer width of 00_scope.md R9, the check is the conjunction of its items. -/
theorem Config.wf_iff {c : Config} (hwidth : c.ptrWidth = 8) : c.wf = true ↔
    c.datasetOk = true ∧ c.odrOk = true ∧ c.addrsDistinct = true ∧ c.pwrMgmtListed = true ∧
      c.axesOk = true ∧ c.modeOk = true ∧ c.resetModeOk = true := by
  simp [Config.wf, Config.ptrWidthOk, hwidth, and_assoc]

end Sys2Proof

/-! ## The statements -/

namespace Sys2Proof.Machine

open Sys2Proof

/-- Settles O59, by the cases of a step (`step_next`): waiting and reset keep the time, and a command
brings a later time and keeps `last` behind it (`Effect.last_le_now`). -/
theorem scheduleNeverAheadOfTime : Obligations.ScheduleNeverAheadOfTime := by
  intro s t hrise hlast hstep
  obtain ⟨-, ⟨-, -, rfl⟩ | ⟨rest, hin, rfl⟩ | ⟨now, w, rest, hin, hexec⟩⟩ := step_next hstep
  · exact ⟨hrise, hlast⟩
  · rw [hin, timesRise_reset] at hrise
    exact ⟨hrise, by simp⟩
  · rw [hin, timesRise_command] at hrise
    obtain ⟨hnow, hrest⟩ := hrise
    obtain ⟨-, heffect⟩ := exec_effect hexec
    refine ⟨?_, heffect.last_le_now fun x hx => (hlast x hx).trans hnow⟩
    rw [heffect.now_eq, heffect.inbox_eq]
    exact hrest

/-- Settles O11: each check of a configuration is its item of the list; item (g) speaks of the listed
pair because items (c) and (d) make it the one that gives the reset value. -/
theorem onlyWellFormedConfigsRun : Obligations.OnlyWellFormedConfigsRun := by
  refine ⟨fun c hwidth => ?_, fun s => step_of_not_wf⟩
  have haddr : c.devAddr.toNat ≤ 0xFF := Nat.le_of_lt_succ c.devAddr.isLt
  rw [Config.wf_iff hwidth, Config.datasetOk_iff, Config.odrOk_iff, Config.addrsDistinct_iff,
    Config.pwrMgmtListed_iff, Config.modeOk_iff]
  refine and_congr_right fun _ => and_congr_right fun _ => and_congr_right fun hnodup =>
    and_congr_right fun hlisted => and_congr ?_ (and_congr_right fun _ => ?_)
  · simp only [Config.axesOk, Bool.and_eq_true, Config.axisOk_iff, and_assoc]
  · rw [Config.resetModeOk_iff hnodup hlisted]
    exact (and_iff_left haddr).symm

/-- Settles O12: a command with a next state was not halted (`exec_effect`), and the session invariant
rules out the only other stop. -/
theorem execDefinedExactlyWhenRunning : Obligations.ExecDefinedExactlyWhenRunning := by
  intro i s hs
  constructor
  · rintro ⟨t, ht⟩
    exact (exec_effect ht).1
  · exact exists_exec_of_running i hs

/-- Settles O46: `encode16` reads the numerator and the denominator only through their quotient
(`encode16_eq_roundRat`). -/
theorem encodingDependsOnValueOnly : Obligations.EncodingDependsOnValueOnly := by
  intro c q q' hq hq' hvalue
  rw [encode16_eq_roundRat c q hq, encode16_eq_roundRat c q' hq', hvalue]

/-- Settles O8. -/
theorem stepRunsDecodedCommand : Obligations.StepRunsDecodedCommand := by
  intro s t w rest hwf hin
  exact step_of_fetch_command hwf (fetch_of_inbox_command hin)

/-- Settles O10. -/
theorem stepWaitsWithoutInput : Obligations.StepWaitsWithoutInput := by
  intro s hwf hin hf
  calc step s = idleStep s := step_of_fetch_nothing hwf (fetch_of_inbox_nil hin)
    _ = .next { s with rsp := none } := unlessHalted_running _ hf

end Sys2Proof.Machine

/-! # Proofs for the statements on 10_state.md

First what a well-formed configuration gives, the category of an address, the state after reset, and
what a command does to each part of a good state: the session, the register file, the pointer. Then the
statements. -/

namespace Sys2Proof

/-! ## What a well-formed configuration gives -/

/-- The conjunction of the checks, whatever the pointer width. -/
theorem Config.wf_iff_checks {c : Config} : c.wf = true ↔
    c.datasetOk = true ∧ c.odrOk = true ∧ c.addrsDistinct = true ∧ c.pwrMgmtListed = true ∧
      c.axesOk = true ∧ c.modeOk = true ∧ c.resetModeOk = true ∧ c.ptrWidthOk = true := by
  simp [Config.wf, and_assoc]

theorem Config.dataset_length_pos {c : Config} (h : c.wf = true) : 0 < c.dataset.length := by
  obtain ⟨hdataset, -⟩ := Config.wf_iff_checks.1 h
  exact (Config.datasetOk_iff.1 hdataset).1

theorem Config.mappedAddrs_nodup {c : Config} (h : c.wf = true) : c.mappedAddrs.Nodup := by
  obtain ⟨-, -, hdistinct, -⟩ := Config.wf_iff_checks.1 h
  exact Config.addrsDistinct_iff.1 hdistinct

theorem Config.reset_modeField {c : Config} (h : c.wf = true) :
    Machine.modeField c (Machine.resetByte c c.addrPwrMgmt.toNat) = c.modeDisabled := by
  obtain ⟨-, -, -, -, -, -, hreset, -⟩ := Config.wf_iff_checks.1 h
  exact beq_iff_eq.1 hreset

/-- Every byte that BYTE selects fits the pointer. -/
theorem Config.byte_lt_ptrRange {c : Config} (h : c.wf = true) (b : Byte) :
    b.toNat < 2 ^ c.ptrWidth := by
  obtain ⟨-, -, -, -, -, -, -, hwidth⟩ := Config.wf_iff_checks.1 h
  exact b.isLt.trans_le (Nat.pow_le_pow_right two_pos (of_decide_eq_true hwidth))

end Sys2Proof

namespace Sys2Proof.Machine

open Sys2Proof

/-! ## The category of an address -/

theorem isConfigAddr_iff {c : Config} {a : Nat} :
    isConfigAddr c a = true ↔ ∃ p ∈ c.configRegs, p.1.toNat = a := by
  simp [isConfigAddr]

theorem not_isConfigAddr_iff {c : Config} {a : Nat} :
    ¬isConfigAddr c a = true ↔ ∀ p ∈ c.configRegs, p.1.toNat ≠ a := by
  simp only [isConfigAddr_iff, not_exists, not_and, ne_eq]

/-- What `dataRegAt` finds is a data register at that address, and it finds one if there is one. -/
theorem dataRegAt_cases (c : Config) (a : Nat) :
    (∃ k, dataRegAt c a = some k ∧ a = (perDataGet c.addrData k).toNat) ∨
      dataRegAt c a = none ∧ ∀ k, a ≠ (perDataGet c.addrData k).toNat := by
  unfold dataRegAt
  split_ifs with h1 h2 h3 h4 h5 h6
  · exact .inl ⟨_, rfl, h1⟩
  · exact .inl ⟨_, rfl, h2⟩
  · exact .inl ⟨_, rfl, h3⟩
  · exact .inl ⟨_, rfl, h4⟩
  · exact .inl ⟨_, rfl, h5⟩
  · exact .inl ⟨_, rfl, h6⟩
  · refine .inr ⟨rfl, fun k => ?_⟩
    cases k <;> assumption

/-- The six data registers, in the order of `ADDR_DATA` (10_state.md R28). -/
def dataRegs : List DataReg := [.xHigh, .xLow, .yHigh, .yLow, .zHigh, .zLow]

theorem mem_dataRegs (k : DataReg) : k ∈ dataRegs := by
  cases k <;> decide

theorem mappedAddrs_eq (c : Config) : c.mappedAddrs =
    c.configRegs.map Prod.fst ++ c.addrStatus :: dataRegs.map (perDataGet c.addrData) := rfl

/-- Pairwise different mapped addresses keep the configuration registers, the status register and the
data registers apart (00_scope.md R11(c)). -/
theorem mappedAddrs_disjoint {c : Config} (h : c.mappedAddrs.Nodup) :
    (∀ p ∈ c.configRegs, p.1 ≠ c.addrStatus) ∧
      (∀ p ∈ c.configRegs, ∀ k, p.1 ≠ perDataGet c.addrData k) ∧
      (∀ k, c.addrStatus ≠ perDataGet c.addrData k) ∧
      ∀ j k, perDataGet c.addrData j = perDataGet c.addrData k → j = k := by
  rw [mappedAddrs_eq, List.nodup_append, List.nodup_cons] at h
  obtain ⟨-, ⟨hstatus, hdata⟩, hconfig⟩ := h
  have hmem (k : DataReg) : perDataGet c.addrData k ∈ dataRegs.map (perDataGet c.addrData) :=
    List.mem_map_of_mem (mem_dataRegs k)
  refine ⟨fun p hp => ?_, fun p hp k => ?_, fun k heq => ?_, fun j k => ?_⟩
  · exact hconfig _ (List.mem_map_of_mem hp) _ List.mem_cons_self
  · exact hconfig _ (List.mem_map_of_mem hp) _ (List.mem_cons_of_mem _ (hmem k))
  · exact hstatus (heq ▸ hmem k)
  · exact List.inj_on_of_nodup_map hdata (mem_dataRegs j) (mem_dataRegs k)

/-- What makes an address fall into a category (10_state.md R26). -/
def InCategory (c : Config) (a : Nat) : Category → Prop
  | .config => ∃ p ∈ c.configRegs, p.1.toNat = a
  | .status => a = c.addrStatus.toNat
  | .data k => a = (perDataGet c.addrData k).toNat
  | .unmapped => (∀ p ∈ c.configRegs, p.1.toNat ≠ a) ∧ a ≠ c.addrStatus.toNat ∧
      ∀ k, a ≠ (perDataGet c.addrData k).toNat

theorem inCategory_category (c : Config) (a : Nat) : InCategory c a (category c a) := by
  unfold category
  split_ifs with hconfig hstatus
  · exact isConfigAddr_iff.1 hconfig
  · exact hstatus
  · rcases dataRegAt_cases c a with ⟨k, hk, ha⟩ | ⟨hnone, hdata⟩
    · rw [hk]
      exact ha
    · rw [hnone]
      exact ⟨not_isConfigAddr_iff.1 hconfig, hstatus, hdata⟩

/-- An earlier category would hide a later one; with different addresses none does. -/
theorem category_of_inCategory {c : Config} {a : Nat} {k : Category} (h : c.mappedAddrs.Nodup)
    (hk : InCategory c a k) : category c a = k := by
  obtain ⟨hconfigStatus, hconfigData, hstatusData, hdata⟩ := mappedAddrs_disjoint h
  cases k with
  | config => exact if_pos (isConfigAddr_iff.2 hk)
  | status =>
    have hconfig : ¬isConfigAddr c a = true := not_isConfigAddr_iff.2 fun p hp ha =>
      hconfigStatus p hp (BitVec.eq_of_toNat_eq (ha.trans hk))
    exact (if_neg hconfig).trans (if_pos hk)
  | data j =>
    have hconfig : ¬isConfigAddr c a = true := not_isConfigAddr_iff.2 fun p hp ha =>
      hconfigData p hp j (BitVec.eq_of_toNat_eq (ha.trans hk))
    have hstatus : a ≠ c.addrStatus.toNat := fun ha =>
      hstatusData j (BitVec.eq_of_toNat_eq (ha.symm.trans hk))
    rcases dataRegAt_cases c a with ⟨l, hl, ha⟩ | ⟨-, hnone⟩
    · have hlj : l = j := hdata l j (BitVec.eq_of_toNat_eq (ha.symm.trans hk))
      simp [category, hconfig, hstatus, hl, hlj]
    · exact absurd hk (hnone j)
  | unmapped =>
    obtain ⟨hregs, hstatus, hnone⟩ := hk
    have hconfig : ¬isConfigAddr c a = true := not_isConfigAddr_iff.2 hregs
    rcases dataRegAt_cases c a with ⟨l, -, ha⟩ | ⟨hdataReg, -⟩
    · exact absurd ha (hnone l)
    · simp [category, hconfig, hstatus, hdataReg]

theorem category_eq_iff {c : Config} {a : Nat} {k : Category} (h : c.mappedAddrs.Nodup) :
    category c a = k ↔ InCategory c a k :=
  ⟨fun hk => hk ▸ inCategory_category c a, category_of_inCategory h⟩

/-! ## Right after reset -/

theorem cfgByte_ofConfig (c : Config) (a : Nat) : (State.ofConfig c).cfgByte a = resetByte c a := rfl

theorem perDataGet_ofConfig (c : Config) (k : DataReg) :
    perDataGet (State.ofConfig c).data k = c.dataReset := by
  cases k <;> rfl

theorem isNewDataReady_disabled {s : State} (now : Time) (h : s.last = none) :
    isNewDataReady now s = (false, s) := by
  simp [isNewDataReady, h]

theorem regRead_status {a : Nat} {s : State} (now : Time) (h : category s.config a = .status) :
    regRead a now s = (statusByte (isNewDataReady now s).1, (isNewDataReady now s).2) := by
  simp [regRead, h]

theorem regRead_unmapped {a : Nat} {s : State} (now : Time) (h : category s.config a = .unmapped) :
    regRead a now s = (sentinel, s) := by
  simp [regRead, h]

/-- A STATUS read while acquisition is off answers 0x00 and changes nothing. -/
theorem regRead_status_disabled {a : Nat} {s : State} (now : Time)
    (h : category s.config a = .status) (hlast : s.last = none) :
    regRead a now s = (0x00#8, s) := by
  rw [regRead_status now h, isNewDataReady_disabled now hlast]
  rfl

/-! ## The session -/

theorem sessionInv_idle {s : State} (h : s.fsm = .idle) :
    SessionInv s ↔ s.ptr = none ∧ s.dir = none := by
  simp [SessionInv, h]

theorem sessionInv_registerSelect {s : State} (h : s.fsm = .registerSelect) :
    SessionInv s ↔ s.ptr = none ∧ s.dir = some .write := by
  simp [SessionInv, h]

theorem sessionInv_writeActive {s : State} (h : s.fsm = .writeActive) :
    SessionInv s ↔ s.ptr.isSome = true ∧ s.dir = some .write := by
  simp [SessionInv, h]

theorem sessionInv_readActive {s : State} (h : s.fsm = .readActive) :
    SessionInv s ↔ s.ptr.isSome = true ∧ s.dir = some .read := by
  simp [SessionInv, h]

theorem sessionInv_congr {s t : State} (hfsm : t.fsm = s.fsm) (hptr : t.ptr = s.ptr)
    (hdir : t.dir = s.dir) : SessionInv t ↔ SessionInv s := by
  simp [SessionInv, hfsm, hptr, hdir]

theorem sessionInv_ofConfig (c : Config) : SessionInv (State.ofConfig c) :=
  (sessionInv_idle rfl).2 ⟨rfl, rfl⟩

/-- A command that completes leads from a row of the session table to a row of it (10_state.md R24). -/
theorem Effect.sessionInv {s t : State} {i : Instr} (h : Effect s i t) (hs : SessionInv s) :
    SessionInv t := by
  cases h with
  | aborted | endedRead | endedWrite => exact (sessionInv_idle rfl).2 ⟨rfl, rfl⟩
  | opened a fsm =>
    obtain ⟨hptr, -⟩ := (sessionInv_idle fsm).1 hs
    exact (sessionInv_registerSelect rfl).2 ⟨hptr, rfl⟩
  | selected b fsm =>
    obtain ⟨-, hdir⟩ := (sessionInv_registerSelect fsm).1 hs
    exact (sessionInv_writeActive rfl).2 ⟨rfl, hdir⟩
  | readFirst a p => exact (sessionInv_readActive (by simp)).2 (by simp)
  | readOn p fsm =>
    obtain ⟨-, hdir⟩ := (sessionInv_readActive fsm).1 hs
    exact (sessionInv_readActive (by simpa using fsm)).2 (by simpa using hdir)
  | wrote b p fsm =>
    obtain ⟨-, hdir⟩ := (sessionInv_writeActive fsm).1 hs
    exact (sessionInv_writeActive (by simpa using fsm)).2 (by simpa using hdir)
  | wroteFatal | portRead | portWrote | portWroteFatal | portUnrecognized =>
    exact (sessionInv_congr (by simp) (by simp) (by simp)).2 hs

/-! ## The register file -/

/-- The part of a good state that the register file holds: canonical storage, the dataset position in
range, and the power state in agreement with the stored mode code. -/
def RegFileInv (s : State) : Prop := CfgInv s ∧ IdxInv s ∧ PowerInv s

theorem goodState_iff {s : State} :
    GoodState s ↔ s.config.wf = true ∧ SessionInv s ∧ PtrInv s ∧ RegFileInv s := by
  unfold RegFileInv
  tauto

theorem powerInv_running {s : State} (h : s.fatal = false) :
    PowerInv s ↔ storedMode s = if enabled s then s.config.modeLowNoise else s.config.modeDisabled := by
  simp [PowerInv, h]

theorem powerInv_halted {s : State} (h : s.fatal = true) :
    PowerInv s ↔ unsupportedMode s.config (storedMode s) = true := by
  simp [PowerInv, h]

theorem cfgInv_ofConfig (c : Config) : CfgInv (State.ofConfig c) := ⟨State.ofConfig_cfg_wf c, rfl⟩

theorem powerInv_ofConfig {c : Config} (h : c.wf = true) : PowerInv (State.ofConfig c) :=
  (powerInv_running rfl).2 (Config.reset_modeField h)

theorem regFileInv_ofConfig {c : Config} (h : c.wf = true) : RegFileInv (State.ofConfig c) :=
  ⟨cfgInv_ofConfig c, Config.dataset_length_pos h, powerInv_ofConfig h⟩

/-- Storing a byte at an address of CONFIG_REGS keeps the storage canonical (log 10). -/
theorem cfgInv_setCfgByte {s : State} {a : Nat} (v : Byte) (hs : CfgInv s)
    (ha : isConfigAddr s.config a = true) : CfgInv (s.setCfgByte a v) := by
  obtain ⟨hwf, hlisted⟩ := hs
  refine ⟨Memory.wf_write a v hwf, List.all_eq_true.2 fun cell hcell => ?_⟩
  rcases Memory.mem_write hcell with rfl | hold
  · exact ha
  · exact List.all_eq_true.1 hlisted cell hold

theorem isConfigAddr_of_category {c : Config} {a : Nat} (h : category c a = .config) :
    isConfigAddr c a = true := by
  have hreason := inCategory_category c a
  rw [h] at hreason
  exact isConfigAddr_iff.2 hreason

theorem regRead_enabled (a : Nat) (now : Time) (s : State) :
    enabled (regRead a now s).2 = enabled s := by
  rcases regRead_last a now s with h | ⟨x, hx, -, h⟩
  · simp [enabled, h]
  · simp [enabled, h, hx]

/-- A register read keeps the invariant: a pull leaves `idx` in range and acquisition on. -/
theorem regRead_regFileInv (a : Nat) (now : Time) {s : State} (hs : RegFileInv s) :
    RegFileInv (regRead a now s).2 := by
  obtain ⟨hcfg, hidx, hpower⟩ := hs
  refine ⟨by simpa [CfgInv] using hcfg, ?_, ?_⟩
  · rcases regRead_state a now s with h | ⟨-, x, -, -, h⟩
    · rwa [h]
    · simpa [IdxInv, h] using Nat.mod_lt _ (Nat.zero_lt_of_lt hidx)
  · simpa [PowerInv, storedMode, State.cfgByte, regRead_enabled] using hpower

theorem storedMode_setCfgByte_same {s : State} (v : Byte) (hs : CfgInv s) :
    storedMode (s.setCfgByte s.config.addrPwrMgmt.toNat v) = modeField s.config v := by
  obtain ⟨hwf, -⟩ := hs
  simp only [storedMode, State.setCfgByte_config, State.cfgByte_setCfgByte_same _ v hwf]

theorem storedMode_setCfgByte_other {s : State} {a : Nat} (v : Byte)
    (ha : a ≠ s.config.addrPwrMgmt.toNat) : storedMode (s.setCfgByte a v) = storedMode s := by
  simp only [storedMode, State.setCfgByte_config, State.cfgByte_setCfgByte_other v ha.symm]

/-- A power-management write of the byte just stored makes the power state agree with it: on after
MODE_LOW_NOISE, off after MODE_DISABLED, halted after any other code (41_register_access.md R166). -/
theorem pwrWrite_powerInv {v : Byte} {s : State} (now : Time) (hf : s.fatal = false)
    (hstored : storedMode s = modeField s.config v) : PowerInv (pwrWrite v now s) := by
  rcases pwrWrite_cases v now s with ⟨hmode, h⟩ | ⟨-, hmode, h⟩ | ⟨hmode, h⟩
  · rw [h]
    exact (powerInv_running (s := enable now s) hf).2 (hstored.trans hmode)
  · rw [h]
    exact (powerInv_running (s := disable s) hf).2 (hstored.trans hmode)
  · rw [h]
    exact (powerInv_halted (s := raiseFatal s) rfl).2 (hstored ▸ hmode)

/-- A register write of a running block keeps the invariant. -/
theorem regWrite_regFileInv (a : Nat) (v : Byte) (now : Time) {s : State} (hf : s.fatal = false)
    (hs : RegFileInv s) : RegFileInv (regWrite a v now s) := by
  obtain ⟨hcfg, hidx, hpower⟩ := hs
  rcases regWrite_cases a v now s with ⟨-, h⟩ | ⟨hcat, ha, h⟩ | ⟨hcat, rfl, h⟩
  · rw [h]
    exact ⟨hcfg, hidx, hpower⟩
  all_goals have hstore := cfgInv_setCfgByte v hcfg (isConfigAddr_of_category hcat)
  · rw [h]
    refine ⟨hstore, hidx, (powerInv_running (s := s.setCfgByte a v) hf).2 ?_⟩
    rw [storedMode_setCfgByte_other v ha]
    exact (powerInv_running hf).1 hpower
  · rw [h]
    refine ⟨?_, by simpa [IdxInv] using hidx,
      pwrWrite_powerInv now hf (storedMode_setCfgByte_same v hcfg)⟩
    simpa only [CfgInv, pwrWrite_config, pwrWrite_cfg] using hstore

/-- A command of a running block keeps the register file's part of a good state: it reads one register,
writes one, or leaves them all alone. -/
theorem Effect.regFileInv {s t : State} {i : Instr} (h : Effect s i t) (hf : s.fatal = false)
    (hs : RegFileInv s) : RegFileInv t := by
  cases h with
  | readFirst a p => exact regRead_regFileInv p s.now (s := beginRead s) hs
  | readOn p => exact regRead_regFileInv p s.now hs
  | portRead r => exact regRead_regFileInv r.toNat s.now hs
  | wrote b p => exact regWrite_regFileInv p b s.now hf hs
  | wroteFatal b p => exact regWrite_regFileInv p b s.now hf hs
  | portWrote r v => exact regWrite_regFileInv r.toNat v s.now hf hs
  | portWroteFatal r v => exact regWrite_regFileInv r.toNat v s.now hf hs
  | aborted | opened | selected | endedRead | endedWrite | portUnrecognized => exact hs

/-! ## The configuration and the pointer -/

theorem Effect.config_eq {s t : State} {i : Instr} (h : Effect s i t) : t.config = s.config := by
  cases h <;> simp

theorem nextPtr_lt (c : Config) (p : Nat) : nextPtr c p < 2 ^ c.ptrWidth :=
  Nat.mod_lt _ (Nat.two_pow_pos _)

theorem ptrInv_ofConfig (c : Config) : PtrInv (State.ofConfig c) := fun _ h => nomatch h

/-- All that a command can do to the pointer: leave it, clear it, set it to the byte that BYTE selects,
or advance it. -/
theorem Effect.ptr_cases {s t : State} {i : Instr} (h : Effect s i t) :
    t.ptr = s.ptr ∨ t.ptr = none ∨ (∃ b : Byte, t.ptr = some b.toNat) ∨
      ∃ p, t.ptr = some (nextPtr s.config p) := by
  cases h with
  | aborted | endedRead | endedWrite => exact .inr (.inl rfl)
  | selected b => exact .inr (.inr (.inl ⟨b, rfl⟩))
  | readFirst a p | readOn p | wrote b p => exact .inr (.inr (.inr ⟨p, rfl⟩))
  | opened | wroteFatal | portRead | portWrote | portWroteFatal | portUnrecognized =>
    exact .inl (by simp)

theorem Effect.ptrInv {s t : State} {i : Instr} (h : Effect s i t) (hwf : s.config.wf = true)
    (hs : PtrInv s) : PtrInv t := by
  rw [PtrInv, h.config_eq]
  rcases h.ptr_cases with ht | ht | ⟨b, ht⟩ | ⟨p, ht⟩
  · rwa [ht]
  · simp [ht]
  · simpa [ht] using Config.byte_lt_ptrRange hwf b
  · simpa [ht] using nextPtr_lt s.config p

/-- A bus command outside the accepting cells accesses no register (20_memory.md R53). -/
theorem targets_of_not_accepted {i : Instr} {s : State} (hport : i.onRegisterPort = false)
    (hcell : accepted i s = false) : readTarget i s = none ∧ writeTarget i s = none := by
  cases i with
  | startR a =>
    have hnot : ¬(s.fsm = .writeActive ∧ a = s.config.devAddr) := of_decide_eq_false hcell
    exact ⟨if_neg hnot, rfl⟩
  | byte b =>
    have hnot : ¬(s.fsm = .registerSelect ∨ s.fsm = .writeActive ∧ s.config.writePathEn = true) :=
      of_decide_eq_false hcell
    exact ⟨rfl, if_neg fun h => hnot (.inr h)⟩
  | ack =>
    have hnot : ¬s.fsm = .readActive := of_decide_eq_false hcell
    exact ⟨if_neg hnot, rfl⟩
  | startW | nackStop | stop | busMalformed => exact ⟨rfl, rfl⟩
  | readByte | writeByte | regUnrecognized => simp [Instr.onRegisterPort] at hport

/-- An accepted bus access at `p` that is not fatal advances the pointer (10_state.md R25). -/
theorem Effect.ptr_of_access {s t : State} {i : Instr} {p : Nat} (h : Effect s i t)
    (hport : i.onRegisterPort = false) (hf : t.fatal = false)
    (haccess : readTarget i s = some p ∨ ∃ v, writeTarget i s = some (p, v)) :
    t.ptr = some (nextPtr s.config p) := by
  cases h with
  | aborted i _ cell =>
    obtain ⟨hread, hwrite⟩ := targets_of_not_accepted hport cell
    simp [hread, hwrite] at haccess
  | opened | endedRead | endedWrite => simp [readTarget, writeTarget] at haccess
  | selected b fsm => simp [readTarget, writeTarget, fsm] at haccess
  | readFirst a q fsm addr ptr =>
    have hq : q = p := by simpa [readTarget, writeTarget, fsm, addr, ptr] using haccess
    exact hq ▸ rfl
  | readOn q fsm ptr =>
    have hq : q = p := by simpa [readTarget, writeTarget, fsm, ptr] using haccess
    exact hq ▸ rfl
  | wrote b q fsm enabled ptr =>
    have hq : q = p := by simpa [readTarget, writeTarget, fsm, enabled, ptr] using haccess
    exact hq ▸ rfl
  | wroteFatal b q _ _ _ halted => exact absurd halted (ne_true_of_eq_false hf)
  | portRead | portWrote | portWroteFatal | portUnrecognized => simp [Instr.onRegisterPort] at hport

/-- A register-port command leaves the pointer (41_register_access.md R169). -/
theorem Effect.ptr_of_registerPort {s t : State} {i : Instr} (h : Effect s i t)
    (hport : i.onRegisterPort = true) : t.ptr = s.ptr := by
  cases h with
  | portRead | portWrote | portWroteFatal | portUnrecognized => simp
  | aborted i port => simp [hport] at port
  | opened | selected | readFirst | readOn | wrote | wroteFatal | endedRead | endedWrite =>
    simp [Instr.onRegisterPort] at hport

/-- A fatal write leaves the pointer (40_bus_protocol.md R128). -/
theorem Effect.ptr_of_fatal {s t : State} {i : Instr} (h : Effect s i t) (hs : s.fatal = false)
    (ht : t.fatal = true) : t.ptr = s.ptr := by
  cases h with
  | wroteFatal | portWroteFatal => simp
  | wrote b p _ _ _ running => exact absurd ht (ne_true_of_eq_false running)
  | portWrote r v running => exact absurd ht (ne_true_of_eq_false running)
  | aborted | opened | selected | readFirst | readOn | endedRead | endedWrite | portRead
  | portUnrecognized => simp [hs] at ht

/-- A bus command that accesses no register leaves no pointer or the one that BYTE selects. -/
theorem Effect.ptr_without_access {s t : State} {i : Instr} (h : Effect s i t) (hs : SessionInv s)
    (hport : i.onRegisterPort = false) (hread : readTarget i s = none)
    (hwrite : writeTarget i s = none) :
    t.ptr = none ∨ ∃ b, i = .byte b ∧ s.fsm = .registerSelect ∧ t.ptr = some b.toNat := by
  cases h with
  | aborted | endedRead | endedWrite => exact .inl rfl
  | opened a fsm =>
    obtain ⟨hptr, -⟩ := (sessionInv_idle fsm).1 hs
    exact .inl hptr
  | selected b fsm => exact .inr ⟨b, rfl, fsm, rfl⟩
  | readFirst a p fsm addr ptr => simp [readTarget, fsm, addr, ptr] at hread
  | readOn p fsm ptr => simp [readTarget, fsm, ptr] at hread
  | wrote b p fsm enabled ptr => simp [writeTarget, fsm, enabled, ptr] at hwrite
  | wroteFatal b p fsm enabled ptr => simp [writeTarget, fsm, enabled, ptr] at hwrite
  | portRead | portWrote | portWroteFatal | portUnrecognized => simp [Instr.onRegisterPort] at hport

/-! ## Good states -/

theorem safeState_ofConfig {c : Config} (h : c.wf = true) : SafeState (State.ofConfig c) :=
  ⟨goodState_iff.2 ⟨h, sessionInv_ofConfig c, ptrInv_ofConfig c, regFileInv_ofConfig h⟩, rfl⟩

theorem Effect.goodState {s t : State} {i : Instr} (h : Effect s i t) (hf : s.fatal = false)
    (hs : GoodState s) : GoodState t := by
  obtain ⟨hwf, hsession, hptr, hregs⟩ := goodState_iff.1 hs
  exact goodState_iff.2
    ⟨h.config_eq ▸ hwf, h.sessionInv hsession, h.ptrInv hwf hptr, h.regFileInv hf hregs⟩

/-! ## The statements -/

/-- Settles O54, by the cases of a step: waiting leaves the session, reset ends it, and a command keeps
the table (`Effect.sessionInv`). -/
theorem sessionInvariantKept : Obligations.SessionInvariantKept := by
  refine ⟨sessionInv_ofConfig, fun s t hs hstep => ?_⟩
  obtain ⟨-, ⟨-, -, rfl⟩ | ⟨rest, -, rfl⟩ | ⟨now, w, rest, -, hexec⟩⟩ := step_next hstep
  · exact hs
  · exact sessionInv_ofConfig s.config
  · obtain ⟨-, heffect⟩ := exec_effect hexec
    exact heffect.sessionInv hs

/-- Settles O56, by the cases of a step: goodness does not speak of the environment's fields, reset
gives a good state, and a command keeps each part of one (`Effect.goodState`). -/
theorem goodStatesStepToGoodStates : Obligations.GoodStatesStepToGoodStates := by
  intro s t hs hstep
  obtain ⟨hwf, ⟨-, -, rfl⟩ | ⟨rest, -, rfl⟩ | ⟨now, w, rest, -, hexec⟩⟩ := step_next hstep
  · exact hs
  · exact (safeState_ofConfig hwf).1
  · obtain ⟨hf, heffect⟩ := exec_effect hexec
    exact heffect.goodState hf hs

/-- Settles O26: one lemma for each kind of command; the session invariant says that no pointer outlives
its session, so that START_W leaves none. -/
theorem pointerAdvancesByOne : Obligations.PointerAdvancesByOne := by
  intro i s t hs hexec
  obtain ⟨hf, heffect⟩ := exec_effect hexec
  refine ⟨fun p hport ht haccess => heffect.ptr_of_access hport ht haccess, ?_,
    heffect.ptr_without_access hs⟩
  rintro (hport | ht)
  · exact heffect.ptr_of_registerPort hport
  · exact heffect.ptr_of_fatal hf ht

/-- Settles O28: different addresses make each category equivalent to its reason (`category_eq_iff`). -/
theorem everyAddressHasOneCategory : Obligations.EveryAddressHasOneCategory := by
  intro c a hwf
  have hnodup := Config.mappedAddrs_nodup hwf
  exact ⟨category_eq_iff hnodup, category_eq_iff hnodup, fun _ => category_eq_iff hnodup,
    category_eq_iff hnodup⟩

/-- Settles O58. -/
theorem configurationNeverChanges : Obligations.ConfigurationNeverChanges := by
  intro s t hstep
  obtain ⟨-, ⟨hin, -, rfl⟩ | ⟨rest, hin, rfl⟩ | ⟨now, w, rest, hin, hexec⟩⟩ := step_next hstep
  · simp [hin]
  · simp [hin]
  · obtain ⟨-, heffect⟩ := exec_effect hexec
    exact ⟨heffect.config_eq, by rw [heffect.inbox_eq, hin]; rfl⟩

/-- Settles O14: the storage lists nothing, so every configuration register reads its listed value, and
acquisition is off. -/
theorem resetValues : Obligations.ResetValues := by
  refine ⟨rfl, rfl, fun c hwf => ⟨rfl, rfl, rfl, fun p hp => ?_, perDataGet_ofConfig c, rfl, rfl, rfl,
    fun now => ?_, fun a now ha => ?_⟩⟩
  · rw [cfgByte_ofConfig]
    exact resetByte_of_mem (Config.configRegs_nodup (Config.mappedAddrs_nodup hwf)) hp
  · exact regRead_status_disabled now (category_of_inCategory (Config.mappedAddrs_nodup hwf) rfl) rfl
  · exact regRead_unmapped now ha

/-- Settles O55: the machine's reset state is the one of REFCFG, which is well-formed. -/
theorem resetStateIsGood : Obligations.ResetStateIsGood :=
  ⟨safeState_ofConfig (c := Config.reference) (by decide), fun _ => safeState_ofConfig⟩

end Sys2Proof.Machine

/-! # Proofs for the statements on 20_memory.md

First the rules of memory: what a register write leaves of the other configuration registers, which
command stores, which read leaves the state alone, and a property carried along a sequence of commands.
Then the statements. -/

namespace Sys2Proof.Machine

open Sys2Proof

/-! ## What a store leaves alone -/

theorem cfgByte_congr {s t : State} (hconfig : t.config = s.config) (hcfg : t.cfg = s.cfg) (a : Nat) :
    t.cfgByte a = s.cfgByte a := by
  simp only [State.cfgByte, hconfig, hcfg]

/-- A register write stores at its own address or nowhere (41_register_access.md R161). -/
theorem regWrite_cfgByte_other {s : State} {a b : Nat} (v : Byte) (now : Time) (hab : b ≠ a) :
    (regWrite a v now s).cfgByte b = s.cfgByte b := by
  rcases regWrite_cases a v now s with ⟨-, h⟩ | ⟨-, -, h⟩ | ⟨-, -, h⟩
  · rw [h]
  · rw [h]
    exact State.cfgByte_setCfgByte_other v hab
  · calc (regWrite a v now s).cfgByte b
        = (s.setCfgByte a v).cfgByte b := by
          rw [h]
          exact cfgByte_congr (pwrWrite_config ..) (pwrWrite_cfg ..) b
      _ = s.cfgByte b := State.cfgByte_setCfgByte_other v hab

/-- The storage after a command is the one before it, or the one that the register write at its write
target leaves. -/
theorem Effect.cfg_cases {s t : State} {i : Instr} (h : Effect s i t) :
    t.cfg = s.cfg ∨
      ∃ p v, writeTarget i s = some (p, v) ∧ t.cfg = (regWrite p v s.now s).cfg := by
  cases h with
  | wrote b p fsm enabled ptr => exact .inr ⟨p, b, by simp [writeTarget, fsm, enabled, ptr], rfl⟩
  | wroteFatal b p fsm enabled ptr => exact .inr ⟨p, b, by simp [writeTarget, fsm, enabled, ptr], rfl⟩
  | portWrote r v | portWroteFatal r v => exact .inr ⟨r.toNat, v, rfl, rfl⟩
  | readFirst | readOn | portRead => exact .inl (by simp)
  | aborted | opened | selected | endedRead | endedWrite | portUnrecognized => exact .inl rfl

/-- A command stores at its write target or nowhere (20_memory.md R53). -/
theorem Effect.cfgByte_other {s t : State} {i : Instr} {a : Nat} (h : Effect s i t)
    (ha : ∀ v, writeTarget i s ≠ some (a, v)) : t.cfgByte a = s.cfgByte a := by
  rcases h.cfg_cases with hcfg | ⟨p, v, hwrite, hcfg⟩
  · exact cfgByte_congr h.config_eq hcfg a
  · have hap : a ≠ p := by
      rintro rfl
      exact ha v hwrite
    calc t.cfgByte a
        = (regWrite p v s.now s).cfgByte a :=
          cfgByte_congr (h.config_eq.trans (regWrite_config ..).symm) hcfg a
      _ = s.cfgByte a := regWrite_cfgByte_other v s.now hap

/-! ## What a read leaves alone -/

/-- A register read at any address but ADDR_STATUS leaves the whole state (41_register_access.md R160). -/
theorem regRead_state_of_ne_status {s : State} {a : Nat} (now : Time)
    (ha : a ≠ s.config.addrStatus.toNat) : (regRead a now s).2 = s := by
  rcases regRead_state a now s with h | ⟨hstatus, -⟩
  · exact h
  · have hreason := inCategory_category s.config a
    rw [hstatus] at hreason
    exact absurd hreason ha

/-- A command that does not read STATUS leaves the data registers and the dataset position
(70_reset_and_hazards.md R265). -/
theorem Effect.samples_eq {s t : State} {i : Instr} (h : Effect s i t)
    (hread : readTarget i s ≠ some s.config.addrStatus.toNat) : t.data = s.data ∧ t.idx = s.idx := by
  cases h with
  | readFirst a p fsm addr ptr =>
    have hp : p ≠ s.config.addrStatus.toNat := by simpa [readTarget, fsm, addr, ptr] using hread
    simp [regRead_state_of_ne_status (s := beginRead s) s.now hp]
  | readOn p fsm ptr =>
    have hp : p ≠ s.config.addrStatus.toNat := by simpa [readTarget, fsm, ptr] using hread
    simp [regRead_state_of_ne_status s.now hp]
  | portRead r =>
    have hr : r.toNat ≠ s.config.addrStatus.toNat := fun hr => hread (congrArg some hr)
    simp [regRead_state_of_ne_status s.now hr]
  | wrote | wroteFatal | portWrote | portWroteFatal => simp
  | aborted | opened | selected | endedRead | endedWrite | portUnrecognized => exact ⟨rfl, rfl⟩

/-! ## Sequences of commands -/

/-- The first command of a sequence that completes is allowed and has a next state, from which the rest
completes. -/
theorem execWhile_cons {ok : Instr → State → Bool} {n : Time} {i : Instr} {cs : List (Time × Instr)}
    {s u : State} : execWhile ok ((n, i) :: cs) s = some u ↔
      ok i { s with now := n } = true ∧
        ∃ t, exec i { s with now := n } = .next t ∧ execWhile ok cs t = some u := by
  by_cases hok : ok i { s with now := n } = true
  · cases hexec : exec i { s with now := n } <;> simp [execWhile, hok, hexec]
  · simp [execWhile, hok]

/-- A property that every allowed command keeps, at whatever time it comes, holds after every sequence
of allowed commands. -/
theorem execWhile_induction {ok : Instr → State → Bool} {P : State → Prop}
    (hkeep : ∀ (n : Time) (i : Instr) (s t : State), P s → ok i { s with now := n } = true →
      exec i { s with now := n } = .next t → P t)
    {cs : List (Time × Instr)} {s u : State} (hs : P s) (h : execWhile ok cs s = some u) : P u := by
  induction cs generalizing s with
  | nil =>
    cases h
    exact hs
  | cons c rest ih =>
    obtain ⟨n, i⟩ := c
    obtain ⟨hok, t, hexec, hrest⟩ := execWhile_cons.1 h
    exact ih (hkeep n i s t hs hok hexec) hrest

theorem leavesUnread_iff {a : Nat} {i : Instr} {s : State} :
    leavesUnread a i s = true ↔ readTarget i s ≠ some a := decide_eq_true_iff

/-- The configuration and the samples of `s`: what commands that do not read STATUS keep. The
configuration is part of it because it says where STATUS is. -/
def SameSamples (s t : State) : Prop := t.config = s.config ∧ t.data = s.data ∧ t.idx = s.idx

theorem SameSamples.after_exec {s t u : State} {n : Time} {i : Instr} (h : SameSamples s t)
    (hok : leavesUnread s.config.addrStatus.toNat i { t with now := n } = true)
    (hexec : exec i { t with now := n } = .next u) : SameSamples s u := by
  obtain ⟨hconfig, hdata, hidx⟩ := h
  obtain ⟨-, heffect⟩ := exec_effect hexec
  rw [← hconfig, leavesUnread_iff] at hok
  obtain ⟨hdata', hidx'⟩ := heffect.samples_eq hok
  exact ⟨heffect.config_eq.trans hconfig, hdata'.trans hdata, hidx'.trans hidx⟩

/-! ## The statements -/

/-- Settles O36: a command stores at its write target or nowhere (`Effect.cfgByte_other`). -/
theorem storesOnlyAtWriteTarget : Obligations.StoresOnlyAtWriteTarget := by
  intro i s t a hexec ha
  obtain ⟨-, heffect⟩ := exec_effect hexec
  exact heffect.cfgByte_other ha

/-- Settles O52, by induction along the sequence: each of its commands keeps the samples
(`SameSamples.after_exec`). -/
theorem dataStableBetweenStatusReads : Obligations.DataStableBetweenStatusReads := by
  intro s u cs hrun
  have hsame : SameSamples s u :=
    execWhile_induction (P := SameSamples s) (fun _ _ _ _ h => h.after_exec) ⟨rfl, rfl, rfl⟩ hrun
  obtain ⟨-, hdata, hidx⟩ := hsame
  exact ⟨hdata, hidx⟩

end Sys2Proof.Machine

/-! # Proofs for the statements on 30_encoding.md

First the binary command word: what a row of the opcode map asks of the fields of a word, and the row in
which each word stands. Then the text form: the tokens of a message, and what a byte written as two hex
digits reads back as. Then the words of the responses, and the statements. -/

namespace Sys2Proof

/-! ## What a row of the opcode map asks of the fields -/

theorem cmdWord_inj {op op' : BitVec 4} {a a' b b' : Byte} :
    cmdWord op a b = cmdWord op' a' b' ↔ op = op' ∧ a = a' ∧ b = b' := by
  refine ⟨fun h => ⟨?_, ?_, ?_⟩, fun ⟨hop, ha, hb⟩ => by rw [hop, ha, hb]⟩
  · simpa using congrArg opField h
  · simpa using congrArg aField h
  · simpa using congrArg bField h

/-- A mask works field by field. -/
theorem and_cmdWord (w : CmdWord) (op : BitVec 4) (a b : Byte) :
    w &&& cmdWord op a b = cmdWord (opField w &&& op) (aField w &&& a) (bField w &&& b) := by
  apply BitVec.eq_of_getLsbD_eq
  intro i _
  rw [← cmdWord_fields w]
  simp only [BitVec.getLsbD_and, cmdWord_getLsbD, opField_cmdWord, aField_cmdWord, bField_cmdWord]
  split
  · rfl
  · split <;> rfl

theorem rowMatches_cmdWord {w : CmdWord} {op op' : BitVec 4} {a a' b b' : Byte} :
    rowMatches (cmdWord op a b) (cmdWord op' a' b') w = true ↔
      opField w &&& op = op' ∧ aField w &&& a = a' ∧ bField w &&& b = b' := by
  rw [rowMatches, beq_iff_eq, and_cmdWord, cmdWord_inj]

theorem opField_and_ones (w : CmdWord) : opField w &&& 0xF#4 = opField w := BitVec.and_allOnes

theorem byte_and_ones (x : Byte) : x &&& 0xFF#8 = x := BitVec.and_allOnes

/-- The rows with the operand A alone: B must be zero. -/
theorem rowMatches_bZero {w : CmdWord} (op : BitVec 4) :
    rowMatches 0xF00FF#20 (cmdWord op 0x00#8 0x00#8) w = true ↔
      opField w = op ∧ bField w = 0x00#8 := by
  have hmask : 0xF00FF#20 = cmdWord 0xF#4 0x00#8 0xFF#8 := rfl
  simp [hmask, rowMatches_cmdWord, opField_and_ones, byte_and_ones]

/-- The rows without an operand: A and B must be zero. -/
theorem rowMatches_abZero {w : CmdWord} (op : BitVec 4) :
    rowMatches 0xFFFFF#20 (cmdWord op 0x00#8 0x00#8) w = true ↔
      opField w = op ∧ aField w = 0x00#8 ∧ bField w = 0x00#8 := by
  have hmask : 0xFFFFF#20 = cmdWord 0xF#4 0xFF#8 0xFF#8 := rfl
  simp [hmask, rowMatches_cmdWord, opField_and_ones, byte_and_ones]

/-- The row with both operands: OP alone decides. -/
theorem rowMatches_opOnly {w : CmdWord} (op : BitVec 4) :
    rowMatches 0xF0000#20 (cmdWord op 0x00#8 0x00#8) w = true ↔ opField w = op := by
  have hmask : 0xF0000#20 = cmdWord 0xF#4 0x00#8 0x00#8 := rfl
  simp [hmask, rowMatches_cmdWord, opField_and_ones]

theorem rowMatches_busPort {w : CmdWord} :
    rowMatches 0x80000#20 0x00000#20 w = true ↔ w.getLsbD 19 = false := by
  have hmask : 0x80000#20 = BitVec.twoPow 20 19 := rfl
  rw [rowMatches, beq_iff_eq, hmask, BitVec.and_twoPow]
  split <;> simp_all

theorem nibble_top_bit_clear_iff : ∀ op : BitVec 4, op.getLsbD 3 = false ↔ op.toNat < 8 := by decide

/-- Bit 19 is the top bit of OP (30_encoding.md R81). -/
theorem bit19_clear_iff {w : CmdWord} : w.getLsbD 19 = false ↔ (opField w).toNat < 8 := by
  rw [← cmdWord_fields w, Laws.PortBit.cmdWord_bit19, opField_cmdWord]
  exact nibble_top_bit_clear_iff (opField w)

/-! ## The row in which a word stands -/

/-- Settles O3: each test of the decoder, in its order, is what its row asks of the fields. -/
theorem decodeReadsFields : Obligations.DecodeReadsFields := fun _ =>
  if_congr (rowMatches_bZero 0x1#4) rfl <|
  if_congr (rowMatches_bZero 0x2#4) rfl <|
  if_congr (rowMatches_bZero 0x3#4) rfl <|
  if_congr (rowMatches_abZero 0x4#4) rfl <|
  if_congr (rowMatches_abZero 0x5#4) rfl <|
  if_congr (rowMatches_abZero 0x6#4) rfl <|
  if_congr (rowMatches_bZero 0x8#4) rfl <|
  if_congr (rowMatches_opOnly 0x9#4) rfl <|
  if_congr rowMatches_busPort rfl rfl

/-- The reserved words of the bus port (30_encoding.md R85). -/
def ReservedOnBusPort (w : CmdWord) : Prop :=
  opField w = 0x0#4 ∨ opField w = 0x7#4 ∨
    ((opField w = 0x1#4 ∨ opField w = 0x2#4 ∨ opField w = 0x3#4) ∧ bField w ≠ 0x00#8) ∨
    ((opField w = 0x4#4 ∨ opField w = 0x5#4 ∨ opField w = 0x6#4) ∧
      ¬(aField w = 0x00#8 ∧ bField w = 0x00#8))

/-- The reserved words of the register port (30_encoding.md R85). -/
def ReservedOnRegisterPort (w : CmdWord) : Prop :=
  0xA ≤ (opField w).toNat ∨ (opField w = 0x8#4 ∧ bField w ≠ 0x00#8)

/-- The rows of the opcode map: the command of a row, with what the row asks of the fields. -/
inductive Row (w : CmdWord) : Instr → Prop
  | startW (op : opField w = 0x1#4) (b : bField w = 0x00#8) : Row w (.startW (aField w))
  | startR (op : opField w = 0x2#4) (b : bField w = 0x00#8) : Row w (.startR (aField w))
  | byte (op : opField w = 0x3#4) (b : bField w = 0x00#8) : Row w (.byte (aField w))
  | ack (op : opField w = 0x4#4) (a : aField w = 0x00#8) (b : bField w = 0x00#8) : Row w .ack
  | nackStop (op : opField w = 0x5#4) (a : aField w = 0x00#8) (b : bField w = 0x00#8) :
    Row w .nackStop
  | stop (op : opField w = 0x6#4) (a : aField w = 0x00#8) (b : bField w = 0x00#8) : Row w .stop
  | busMalformed (reserved : ReservedOnBusPort w) : Row w .busMalformed
  | readByte (op : opField w = 0x8#4) (b : bField w = 0x00#8) : Row w (.readByte (aField w))
  | writeByte (op : opField w = 0x9#4) : Row w (.writeByte (aField w) (bField w))
  | regUnrecognized (reserved : ReservedOnRegisterPort w) : Row w .regUnrecognized

/-- Every word stands in the row of the command it decodes to; a word that no named row takes is
reserved. -/
theorem decode_row (w : CmdWord) : Row w (decode w) := by
  rw [decodeReadsFields w]
  split
  case isTrue h => obtain ⟨op, b⟩ := h; exact .startW op b
  split
  case isTrue h => obtain ⟨op, b⟩ := h; exact .startR op b
  split
  case isTrue h => obtain ⟨op, b⟩ := h; exact .byte op b
  split
  case isTrue h => obtain ⟨op, a, b⟩ := h; exact .ack op a b
  split
  case isTrue h => obtain ⟨op, a, b⟩ := h; exact .nackStop op a b
  split
  case isTrue h => obtain ⟨op, a, b⟩ := h; exact .stop op a b
  split
  case isTrue h => obtain ⟨op, b⟩ := h; exact .readByte op b
  split
  case isTrue op => exact .writeByte op
  split
  case isTrue hport =>
    rw [bit19_clear_iff] at hport
    refine .busMalformed ?_
    unfold ReservedOnBusPort
    bv_omega
  case isFalse hport =>
    rw [bit19_clear_iff] at hport
    refine .regUnrecognized ?_
    unfold ReservedOnRegisterPort
    bv_omega

/-- A named row fixes all three fields. -/
theorem Row.encode_eq {w : CmdWord} {i : Instr} (h : Row w i) (hnamed : i.named = true) :
    encode i = w := by
  cases h with
  | startW op b | startR op b | byte op b | readByte op b =>
    simpa [encode, op, b] using cmdWord_fields w
  | ack op a b | nackStop op a b | stop op a b => simpa [encode, op, a, b] using cmdWord_fields w
  | writeByte op => simpa [encode, op] using cmdWord_fields w
  | busMalformed | regUnrecognized => simp [Instr.named] at hnamed

theorem not_reserved_on_both_ports {w : CmdWord} (hbus : ReservedOnBusPort w) :
    ¬ReservedOnRegisterPort w := by
  unfold ReservedOnBusPort at hbus
  unfold ReservedOnRegisterPort
  bv_omega

theorem Row.busMalformed_iff {w : CmdWord} {i : Instr} (h : Row w i) :
    i = .busMalformed ↔ ReservedOnBusPort w := by
  cases h with
  | startW op b | startR op b | byte op b | readByte op b => simp [ReservedOnBusPort, op, b]
  | ack op a b | nackStop op a b | stop op a b => simp [ReservedOnBusPort, op, a, b]
  | writeByte op => simp [ReservedOnBusPort, op]
  | busMalformed reserved => simp [reserved]
  | regUnrecognized reserved => simpa using fun hbus => not_reserved_on_both_ports hbus reserved

theorem Row.regUnrecognized_iff {w : CmdWord} {i : Instr} (h : Row w i) :
    i = .regUnrecognized ↔ ReservedOnRegisterPort w := by
  cases h with
  | startW op b | startR op b | byte op b | readByte op b => simp [ReservedOnRegisterPort, op, b]
  | ack op | nackStop op | stop op | writeByte op => simp [ReservedOnRegisterPort, op]
  | busMalformed reserved => simpa using not_reserved_on_both_ports reserved
  | regUnrecognized reserved => simp [reserved]

/-! ## The tokens of a message -/

/-- A token: not empty, and no whitespace in it (30_encoding.md R89). -/
def isToken (t : List Char) : Bool := !t.isEmpty && t.all (!isSpaceChar ·)

theorem isToken_iff {t : List Char} :
    isToken t = true ↔ t ≠ [] ∧ ∀ ch ∈ t, isSpaceChar ch = false := by
  simp [isToken]

theorem tokensFrom_append {t : List Char} (ht : ∀ ch ∈ t, isSpaceChar ch = false)
    (cur rest : List Char) : tokensFrom cur (t ++ rest) = tokensFrom (t.reverse ++ cur) rest := by
  induction t generalizing cur with
  | nil => rfl
  | cons ch t ih =>
    obtain ⟨hch, ht⟩ := List.forall_mem_cons.1 ht
    simp [tokensFrom, hch, ih ht]

theorem tokens_of_isToken {t : List Char} (ht : isToken t = true) : tokens t = [t] := by
  obtain ⟨hne, hspace⟩ := isToken_iff.1 ht
  simpa [tokens, tokensFrom, hne] using tokensFrom_append hspace [] []

theorem tokens_append_space {t : List Char} (ht : isToken t = true) (rest : List Char) :
    tokens (t ++ ' ' :: rest) = t :: tokens rest := by
  obtain ⟨hne, hspace⟩ := isToken_iff.1 ht
  have hblank : isSpaceChar ' ' = true := by decide
  simp [tokens, tokensFrom_append hspace, tokensFrom, hne, hblank]

theorem tokens_two {t u : List Char} (ht : isToken t = true) (hu : isToken u = true) :
    tokens (t ++ ' ' :: u) = [t, u] := by
  rw [tokens_append_space ht, tokens_of_isToken hu]

theorem tokens_three {t u v : List Char} (ht : isToken t = true) (hu : isToken u = true)
    (hv : isToken v = true) : tokens (t ++ ' ' :: u ++ ' ' :: v) = [t, u, v] := by
  rw [List.append_assoc, List.cons_append, tokens_append_space ht, tokens_two hu hv]

/-! ## A byte as two hex digits -/

theorem hexDigitValue_hexDigitChar : ∀ d < 16, hexDigitValue (hexDigitChar d) = some d := by decide

theorem isSpaceChar_hexDigitChar : ∀ d < 16, isSpaceChar (hexDigitChar d) = false := by decide

theorem byte_high_lt (b : Byte) : b.toNat / 16 < 16 := by omega

theorem byte_low_lt (b : Byte) : b.toNat % 16 < 16 := by omega

theorem isToken_hexText (b : Byte) : isToken (hexText b) = true := by
  simp [isToken, hexText, isSpaceChar_hexDigitChar, byte_high_lt, byte_low_lt]

/-- No hex digit is a character without a digit's value, as the marks `x` and `X` are. -/
theorem hexDigitChar_ne {ch : Char} (h : hexDigitValue ch = none) {d : Nat} (hd : d < 16) :
    hexDigitChar d ≠ ch := by
  rintro rfl
  simp [hexDigitValue_hexDigitChar d hd] at h

theorem dropHexMark_of_ne {x y : Char} {rest : List Char} (hlower : y ≠ 'x') (hupper : y ≠ 'X') :
    dropHexMark (x :: y :: rest) = x :: y :: rest := by
  unfold dropHexMark
  split <;> simp_all

theorem dropHexMark_hexText (b : Byte) : dropHexMark (hexText b) = hexText b :=
  dropHexMark_of_ne (hexDigitChar_ne (by decide) (byte_low_lt b))
    (hexDigitChar_ne (by decide) (byte_low_lt b))

theorem hexNumberFrom_hexText (b : Byte) : hexNumberFrom 0 (hexText b) = some b.toNat := by
  simp [hexText, hexNumberFrom, hexDigitValue_hexDigitChar, byte_high_lt, byte_low_lt,
    Nat.div_add_mod']

/-- A hex byte is the value of its digits, when there are digits and they spell a byte. -/
theorem hexByte_of_number {tok : List Char} {b : Byte} (hne : dropHexMark tok ≠ [])
    (hnumber : hexNumberFrom 0 (dropHexMark tok) = some b.toNat) : hexByte tok = some b := by
  have hbyte : b.toNat ≤ 0xFF := Nat.le_of_lt_succ b.isLt
  unfold hexByte
  split
  case h_1 hnil => exact absurd hnil hne
  case h_2 hcons => simp [← hcons, hnumber, hbyte]

theorem hexByte_hexText (b : Byte) : hexByte (hexText b) = some b :=
  hexByte_of_number (by rw [dropHexMark_hexText]; exact List.cons_ne_nil _ _)
    (by rw [dropHexMark_hexText, hexNumberFrom_hexText])

/-! ## The command that the tokens name (30_encoding.md R92) -/

theorem decodeTokens_startW {u : List Char} {a : Byte} (hu : hexByte u = some a) :
    decodeTokens [kwStart, u, kwWrite] = .startW a := by
  simp [decodeTokens, hu]

theorem decodeTokens_startR {u : List Char} {a : Byte} (hu : hexByte u = some a) :
    decodeTokens [kwStart, u, kwRead] = .startR a := by
  have hkw : kwRead ≠ kwWrite := by decide
  simp [decodeTokens, hu, hkw]

/-- A hex byte is no keyword. -/
theorem ne_of_hexByte {t kw : List Char} {b : Byte} (ht : hexByte t = some b)
    (hkw : hexByte kw = none) : t ≠ kw := by
  rintro rfl
  simp [hkw] at ht

theorem decodeTokens_byte {t : List Char} {b : Byte} (ht : hexByte t = some b) :
    decodeTokens [t] = .byte b := by
  have hack : t ≠ kwAck := ne_of_hexByte ht (by decide)
  have hstop : t ≠ kwStop := ne_of_hexByte ht (by decide)
  simp [decodeTokens, hack, hstop, ht]

theorem decodeTokens_readByte {u : List Char} {r : Byte} (hu : hexByte u = some r) :
    decodeTokens [kwReadByte, u] = .readByte r := by
  have hkw : kwReadByte ≠ kwNack := by decide
  simp [decodeTokens, hu, hkw]

theorem decodeTokens_writeByte {u v : List Char} {r b : Byte} (hu : hexByte u = some r)
    (hv : hexByte v = some b) : decodeTokens [kwWriteByte, u, v] = .writeByte r b := by
  have hkw : kwWriteByte ≠ kwStart := by decide
  simp [decodeTokens, hu, hv, hkw]

end Sys2Proof

namespace Sys2Proof.Machine

open Sys2Proof

/-! ## The words of the responses -/

/-- Field CODE of a response word, bits `[11:8]` (30_encoding.md R87). -/
def codeField (w : RspWord) : BitVec 4 := w.extractLsb' 8 4

/-- Field DATA of a response word, bits `[7:0]` (30_encoding.md R87). -/
def dataField (w : RspWord) : Byte := w.extractLsb' 0 8

theorem codeField_append (code : BitVec 4) (data : Byte) : codeField (code ++ data) = code :=
  BitVec.extractLsb'_append_eq_left

theorem dataField_append (code : BitVec 4) (data : Byte) : dataField (code ++ data) = data :=
  BitVec.extractLsb'_append_eq_right

theorem toNat_code_append_data (code : BitVec 4) (data : Byte) :
    (code ++ data).toNat = code.toNat * 2 ^ 8 + data.toNat := by
  rw [BitVec.toNat_append, ← Nat.shiftLeft_add_eq_or_of_lt data.isLt, Nat.shiftLeft_eq]

/-- The response that the fields of a response word name: the table of 30_encoding.md R87 read
backwards. Codes outside the table are given to FATAL. -/
def rspOfFields (code : BitVec 4) (data : Byte) : Rsp :=
  if code = 0x1#4 then .ack
  else if code = 0x2#4 then .ackData data
  else if code = 0x3#4 then .eot
  else if code = 0x4#4 then .perr
  else if code = 0x8#4 then .rdData data
  else if code = 0x9#4 then .success
  else if code = 0xA#4 then .cmdError
  else .fatal

theorem rspOfFields_rspWord (r : Rsp) :
    rspOfFields (codeField (rspWord r)) (dataField (rspWord r)) = r := by
  cases r <;> simp only [rspWord, codeField_append, dataField_append] <;> rfl

theorem rspWord_injective : Function.Injective rspWord := by
  intro r r' h
  rw [← rspOfFields_rspWord r, h, rspOfFields_rspWord]

/-! ## The statements -/

/-- Settles O1: the words of the two catch-all commands are reserved, and the fields of every other word
name its command. -/
theorem decodeOfEncode : Obligations.DecodeOfEncode := by
  intro i
  cases i with
  | busMalformed => exact (decode_row _).busMalformed_iff.2 (by simp [ReservedOnBusPort, encode])
  | regUnrecognized =>
    exact (decode_row _).regUnrecognized_iff.2 (by simp [ReservedOnRegisterPort, encode])
  | startW | startR | byte | ack | nackStop | stop | readByte | writeByte =>
    rw [decodeReadsFields]
    simp [encode]

/-- Settles O2: the row of a named command fixes the whole word (`Row.encode_eq`). -/
theorem namedCommandHasOneWord : Obligations.NamedCommandHasOneWord := fun w =>
  (decode_row w).encode_eq

/-- Settles O4: the reserved words are the rows of the two catch-all commands, which a running block
answers without a look at its state. -/
theorem reservedWordsAreErrors : Obligations.ReservedWordsAreErrors := by
  intro w
  refine ⟨(decode_row w).busMalformed_iff, (decode_row w).regUnrecognized_iff, fun s hf => ⟨?_, ?_⟩⟩
  · intro hbus
    rw [hbus]
    exact unlessHalted_running _ hf
  · intro hreg
    rw [hreg]
    exact unlessHalted_running _ hf

/-- Settles O6: the text of a command splits into its tokens again (`tokens_two`, `tokens_three`), and
two hex digits read back as their byte (`hexByte_hexText`); a text without an operand is closed. -/
theorem textOfCommandReadsBack : Obligations.TextOfCommandReadsBack := by
  intro i
  cases i with
  | startW a =>
    rw [decodeText, encodeText, tokens_three (by decide) (isToken_hexText a) (by decide)]
    exact decodeTokens_startW (hexByte_hexText a)
  | startR a =>
    rw [decodeText, encodeText, tokens_three (by decide) (isToken_hexText a) (by decide)]
    exact decodeTokens_startR (hexByte_hexText a)
  | byte b =>
    rw [decodeText, encodeText, tokens_of_isToken (isToken_hexText b)]
    exact decodeTokens_byte (hexByte_hexText b)
  | readByte r =>
    rw [decodeText, encodeText, tokens_two (by decide) (isToken_hexText r)]
    exact decodeTokens_readByte (hexByte_hexText r)
  | writeByte r v =>
    rw [decodeText, encodeText, tokens_three (by decide) (isToken_hexText r) (isToken_hexText v)]
    exact decodeTokens_writeByte (hexByte_hexText r) (hexByte_hexText v)
  | ack | nackStop | stop | busMalformed | regUnrecognized => decide

/-- Settles O41, by the effects of a command: the ones of the bus port, the ones of the register port,
and the two fatal writes, whose target is the write's own address. -/
theorem responsesByPort : Obligations.ResponsesByPort := by
  intro i s t hexec
  obtain ⟨-, heffect⟩ := exec_effect hexec
  cases heffect with
  | aborted i port => exact ⟨.perr, rfl, .inl ⟨port, rfl⟩⟩
  | opened | selected | readFirst | readOn | wrote | endedRead | endedWrite =>
    exact ⟨_, rfl, .inl ⟨rfl, rfl⟩⟩
  | portRead | portWrote | portUnrecognized => exact ⟨_, rfl, .inr (.inl ⟨rfl, rfl⟩)⟩
  | wroteFatal b p fsm enabled ptr halted =>
    exact ⟨.fatal, rfl, .inr (.inr ⟨rfl, halted, p, b, by simp [writeTarget, fsm, enabled, ptr]⟩)⟩
  | portWroteFatal r v halted => exact ⟨.fatal, rfl, .inr (.inr ⟨rfl, halted, r.toNat, v, rfl⟩)⟩

/-- Settles O5: the words of the named commands are the encoder's, and the other two are reserved. -/
theorem vectorWordsDecode : Obligations.VectorWordsDecode :=
  ⟨decodeOfEncode (.startW 0x68#8), decodeOfEncode (.startR 0x68#8), decodeOfEncode (.byte 0xAB#8),
    decodeOfEncode .ack, decodeOfEncode .nackStop, decodeOfEncode .stop,
    decodeOfEncode (.readByte 0x39#8), decodeOfEncode (.writeByte 0x1F#8 0x03#8),
    (decode_row 0x40001#20).busMalformed_iff.2 (by simp [ReservedOnBusPort, opField, bField]),
    (decode_row 0x83901#20).regUnrecognized_iff.2 (by simp [ReservedOnRegisterPort, opField, bField])⟩

/-- Settles O7: a word is its CODE and its DATA, from which the response is read back
(`rspOfFields_rspWord`). -/
theorem responseWordsOfTable : Obligations.ResponseWordsOfTable :=
  ⟨rfl, rfl, rfl, rfl, rfl, rfl, toNat_code_append_data 0x2#4, toNat_code_append_data 0x8#4,
    fun _ _ h => rspWord_injective h⟩

end Sys2Proof.Machine

/-! # Proofs for the statements on 40_bus_protocol.md

First the answer of each command in each cell of the table of R131, as an equation; then what a read
does when only the session and the environment differ, and what a command that accesses no register
leaves. Then the statements. -/

namespace Sys2Proof.Machine

open Sys2Proof

/-! ## The answers of the bus-port commands -/

/-- A command outside the accepting cells runs `Abort` (40_bus_protocol.md R131). -/
theorem exec_of_not_accepted {i : Instr} {s : State}
    (hcell : accepted i s = false) (hf : s.fatal = false) : exec i s = .next (abort s) := by
  cases i with
  | startW a =>
    have hnot : ¬(s.fsm = .idle ∧ a = s.config.devAddr) := of_decide_eq_false hcell
    cases hfsm : s.fsm <;> simp_all [exec, execStartW, unlessHalted_running]
  | startR a =>
    have hnot : ¬(s.fsm = .writeActive ∧ a = s.config.devAddr) := of_decide_eq_false hcell
    cases hfsm : s.fsm <;> simp_all [exec, execStartR, unlessHalted_running]
  | byte b =>
    have hnot : ¬(s.fsm = .registerSelect ∨ s.fsm = .writeActive ∧ s.config.writePathEn = true) :=
      of_decide_eq_false hcell
    cases hfsm : s.fsm <;> simp_all [exec, execByte, unlessHalted_running]
  | ack =>
    have hnot : s.fsm ≠ .readActive := of_decide_eq_false hcell
    cases hfsm : s.fsm <;> simp_all [exec, execAck, unlessHalted_running]
  | nackStop =>
    have hnot : s.fsm ≠ .readActive := of_decide_eq_false hcell
    cases hfsm : s.fsm <;> simp_all [exec, execNackStop, unlessHalted_running]
  | stop =>
    have hnot : ¬(s.fsm = .writeActive ∧ s.config.writePathEn = true) := of_decide_eq_false hcell
    cases hfsm : s.fsm <;> simp_all [exec, execStop, unlessHalted_running]
  | busMalformed => exact unlessHalted_running _ hf
  | readByte | writeByte | regUnrecognized => simp [accepted] at hcell

theorem exec_startW_idle {s : State} (hf : s.fatal = false) (hfsm : s.fsm = .idle) :
    exec (.startW s.config.devAddr) s =
      .next ({ s with fsm := .registerSelect, dir := some .write }.respond .ack) := by
  simp [exec, execStartW, unlessHalted_running, hf, hfsm]

theorem exec_byte_registerSelect {b : Byte} {s : State} (hf : s.fatal = false)
    (hfsm : s.fsm = .registerSelect) :
    exec (.byte b) s = .next ({ s with ptr := some b.toNat, fsm := .writeActive }.respond .ack) := by
  simp [exec, execByte, unlessHalted_running, hf, hfsm]

theorem exec_byte_writeActive {b : Byte} {s : State} (hf : s.fatal = false)
    (hfsm : s.fsm = .writeActive) (henabled : s.config.writePathEn = true) :
    exec (.byte b) s = writeNext b s := by
  simp [exec, execByte, unlessHalted_running, hf, hfsm, henabled]

theorem exec_startR_writeActive {s : State} (hf : s.fatal = false) (hfsm : s.fsm = .writeActive) :
    exec (.startR s.config.devAddr) s = readNext (beginRead s) := by
  simp only [exec, execStartR, unlessHalted_running _ hf, hfsm, if_true]

theorem exec_ack_readActive {s : State} (hf : s.fatal = false) (hfsm : s.fsm = .readActive) :
    exec .ack s = readNext s := by
  simp [exec, execAck, unlessHalted_running, hf, hfsm]

theorem exec_nackStop_readActive {s : State} (hf : s.fatal = false) (hfsm : s.fsm = .readActive) :
    exec .nackStop s = .next (endSession s) := by
  simp [exec, execNackStop, unlessHalted_running, hf, hfsm]

theorem exec_stop_writeActive {s : State} (hf : s.fatal = false) (hfsm : s.fsm = .writeActive)
    (henabled : s.config.writePathEn = true) : exec .stop s = .next (endSession s) := by
  simp [exec, execStop, unlessHalted_running, hf, hfsm, henabled]

theorem exec_readByte {r : Byte} {s : State} (hf : s.fatal = false) :
    exec (.readByte r) s =
      .next ((regRead r.toNat s.now s).2.respond (.rdData (regRead r.toNat s.now s).1)) :=
  unlessHalted_running _ hf

theorem exec_regUnrecognized {s : State} (hf : s.fatal = false) :
    exec .regUnrecognized s = .next (commandError s) :=
  unlessHalted_running _ hf

theorem exec_writeByte {r v : Byte} {s : State} (hf : s.fatal = false) :
    exec (.writeByte r v) s = .next
      (if (regWrite r.toNat v s.now s).fatal = true then (regWrite r.toNat v s.now s).respond .fatal
      else (regWrite r.toNat v s.now s).respond .success) := by
  simp only [exec, execWriteByte, unlessHalted_running _ hf]
  split <;> rfl

theorem exec_of_halted {s : State} (i : Instr) (hf : s.fatal = true) :
    exec i s = .fault .halted := by
  cases i <;> exact unlessHalted_halted _ hf

/-- A register-port command is always accepted. -/
theorem busPort_of_not_accepted {i : Instr} {s : State} (hcell : accepted i s = false) :
    i.onRegisterPort = false := by
  cases i with
  | readByte | writeByte | regUnrecognized => simp [accepted] at hcell
  | startW | startR | byte | ack | nackStop | stop | busMalformed => rfl

/-- `ReadNext` with a register selected (40_bus_protocol.md R134). -/
theorem readNext_of_ptr {s : State} {p : Nat} (hp : s.ptr = some p) :
    readNext s = .next ({ (regRead p s.now s).2 with ptr := some (nextPtr s.config p) }.respond
      (.ackData (regRead p s.now s).1)) :=
  readNext_next.2 ⟨p, hp, rfl⟩

/-- The data write with a register selected (40_bus_protocol.md R128). -/
theorem writeNext_of_ptr {b : Byte} {s : State} {p : Nat} (hp : s.ptr = some p) :
    writeNext b s = .next
      (if (regWrite p b s.now s).fatal = true then (regWrite p b s.now s).respond .fatal
      else { regWrite p b s.now s with ptr := some (nextPtr s.config p) }.respond .ack) :=
  writeNext_next.2 ⟨p, hp, rfl⟩

/-! ## Register reads under another session -/

/-- The registers and the acquisition state of `s`, with the session and the environment of `e`. -/
def State.withSessionOf (s e : State) : State :=
  { s with fsm := e.fsm, ptr := e.ptr, dir := e.dir, inbox := e.inbox, now := e.now, rsp := e.rsp }

theorem isNewDataReady_withSessionOf (now : Time) (s e : State) :
    isNewDataReady now (s.withSessionOf e) =
      ((isNewDataReady now s).1, (isNewDataReady now s).2.withSessionOf e) := by
  unfold isNewDataReady
  cases hlast : s.last with
  | none => simp [State.withSessionOf, hlast]
  | some x =>
    cases hdue : sampleDue s.config x now <;> simp [State.withSessionOf, hlast, hdue, pull]

/-- A register read neither looks at the session nor touches it. -/
theorem regRead_withSessionOf (a : Nat) (now : Time) (s e : State) :
    regRead a now (s.withSessionOf e) =
      ((regRead a now s).1, (regRead a now s).2.withSessionOf e) := by
  have hconfig : (s.withSessionOf e).config = s.config := rfl
  unfold regRead
  rw [hconfig]
  cases category s.config a with
  | status => simp [isNewDataReady_withSessionOf]
  | config | data | unmapped => rfl

theorem regRead_beginRead (a : Nat) (now : Time) (s : State) :
    regRead a now (beginRead s) = ((regRead a now s).1, beginRead (regRead a now s).2) := by
  have h := regRead_withSessionOf a now s (beginRead s)
  simpa [State.withSessionOf, beginRead] using h

/-- A bus read of the registers `s` under the session `e`: the registers are left as the read leaves
them, and the session it leaves has the pointer advanced and the byte in the response. -/
theorem readNext_withSessionOf {s e : State} {p : Nat} (hp : e.ptr = some p) :
    ∃ e' : State, readNext (s.withSessionOf e) = .next ((regRead p e.now s).2.withSessionOf e') ∧
      e'.fsm = e.fsm ∧ e'.ptr = some (nextPtr s.config p) ∧
      e'.rsp = some (.ackData (regRead p e.now s).1) := by
  refine ⟨{ e with ptr := some (nextPtr s.config p), rsp := some (.ackData (regRead p e.now s).1) },
    ?_, rfl, rfl, rfl⟩
  have hnow : (s.withSessionOf e).now = e.now := rfl
  rw [readNext_of_ptr (s := s.withSessionOf e) hp, hnow, regRead_withSessionOf]
  rfl

theorem ackBurst_cons {t : Time} {ts : List Time} {s u : State} {v : Byte}
    (hexec : exec .ack { s with now := t } = .next u) (hrsp : u.rsp = some (.ackData v)) :
    ackBurst (t :: ts) s = (ackBurst ts u).map fun r => (v :: r.1, r.2) := by
  simp [ackBurst, hexec, hrsp]

/-- A burst of ACKs in READ_ACTIVE reads the registers from the pointer on, one after another, and
leaves them as those reads do (40_bus_protocol.md R135). -/
theorem ackBurst_eq_readSequence (ts : List Time) {s e : State} {p : Nat} (hf : s.fatal = false)
    (hfsm : e.fsm = .readActive) (hp : e.ptr = some p) (hlt : p < 2 ^ s.config.ptrWidth) :
    ∃ e' : State, ackBurst ts (s.withSessionOf e) =
        some ((readSequence ts p s).1, (readSequence ts p s).2.withSessionOf e') ∧
      e'.fsm = .readActive ∧ e'.ptr = some ((p + ts.length) % 2 ^ s.config.ptrWidth) := by
  induction ts generalizing s e p with
  | nil => exact ⟨e, rfl, hfsm, by simp [hp, Nat.mod_eq_of_lt hlt]⟩
  | cons t ts ih =>
    obtain ⟨e₁, hread, hfsm₁, hp₁, hrsp⟩ :=
      readNext_withSessionOf (s := s) (e := { e with now := t }) hp
    have hack : exec .ack { s.withSessionOf e with now := t } =
        .next ((regRead p t s).2.withSessionOf e₁) :=
      (exec_ack_readActive (s := s.withSessionOf { e with now := t }) hf hfsm).trans hread
    have hconfig : (regRead p t s).2.config = s.config := regRead_config p t s
    obtain ⟨e', hburst, hfsm', hp'⟩ := ih (s := (regRead p t s).2) ((regRead_fatal p t s).trans hf)
      (hfsm₁.trans hfsm) hp₁ (hconfig ▸ nextPtr_lt s.config p)
    refine ⟨e', ?_, hfsm', ?_⟩
    · rw [ackBurst_cons hack hrsp, hburst]
      rfl
    · rw [hp', hconfig, nextPtr, Nat.mod_add_mod, List.length_cons, Nat.add_assoc, Nat.add_comm 1]

theorem readSequence_fatal (ts : List Time) (p : Nat) (s : State) :
    (readSequence ts p s).2.fatal = s.fatal := by
  induction ts generalizing p s with
  | nil => rfl
  | cons t ts ih => exact (ih ..).trans (regRead_fatal p t s)

/-! ## Commands at another time -/

/-- The state with another time input (log 3). -/
def State.atTime (n : Time) (s : State) : State := { s with now := n }

/-- A register read at any address but ADDR_STATUS does not depend on the time. -/
theorem regRead_atTime {a : Nat} {s : State} (n : Time) (ha : a ≠ s.config.addrStatus.toNat) :
    regRead a n (s.atTime n) = ((regRead a s.now s).1, (regRead a s.now s).2.atTime n) := by
  have hstatus : category s.config a ≠ .status := fun h =>
    ha (by simpa [h, InCategory] using inCategory_category s.config a)
  have hconfig : (s.atTime n).config = s.config := rfl
  unfold regRead
  rw [hconfig]
  cases hc : category s.config a with
  | status => exact absurd hc hstatus
  | config | data | unmapped => rfl

theorem pwrWrite_atTime {v : Byte} {s : State} (n m : Time)
    (hv : modeField s.config v ≠ s.config.modeLowNoise) :
    pwrWrite v n (s.atTime n) = (pwrWrite v m s).atTime n := by
  have hconfig : (s.atTime n).config = s.config := rfl
  unfold pwrWrite
  rw [hconfig, if_neg hv, if_neg hv, apply_ite (State.atTime n)]
  rfl

/-- A register write other than of the low-noise code to ADDR_PWR_MGMT does not depend on the time. -/
theorem regWrite_atTime {a : Nat} {v : Byte} {s : State} (n : Time)
    (hv : a = s.config.addrPwrMgmt.toNat → modeField s.config v ≠ s.config.modeLowNoise) :
    regWrite a v n (s.atTime n) = (regWrite a v s.now s).atTime n := by
  have hconfig : (s.atTime n).config = s.config := rfl
  unfold regWrite
  rw [hconfig]
  cases category s.config a with
  | config =>
    dsimp only
    split
    · next ha => exact pwrWrite_atTime (s := s.setCfgByte a v) n s.now (hv ha)
    · rfl
  | status | data | unmapped => rfl

theorem readNext_atTime {s : State} (n : Time) (hread : s.ptr ≠ some s.config.addrStatus.toNat) :
    readNext (s.atTime n) = mapNext (State.atTime n) (readNext s) := by
  rcases Option.eq_none_or_eq_some s.ptr with hp | ⟨p, hp⟩
  · simp [readNext, State.atTime, hp, mapNext]
  · have hne : p ≠ s.config.addrStatus.toNat := fun h => hread (by rw [hp, h])
    have hnow : (s.atTime n).now = n := rfl
    rw [readNext_of_ptr hp, readNext_of_ptr (s := s.atTime n) hp, hnow, regRead_atTime n hne]
    rfl

theorem writeNext_atTime {b : Byte} {s : State} (n : Time)
    (hv : s.ptr = some s.config.addrPwrMgmt.toNat → modeField s.config b ≠ s.config.modeLowNoise) :
    writeNext b (s.atTime n) = mapNext (State.atTime n) (writeNext b s) := by
  rcases Option.eq_none_or_eq_some s.ptr with hp | ⟨p, hp⟩
  · simp [writeNext, State.atTime, hp, mapNext]
  · have hwrite := regWrite_atTime (a := p) n fun h => hv (by rw [hp, h])
    have hnow : (s.atTime n).now = n := rfl
    rw [writeNext_of_ptr hp, writeNext_of_ptr (s := s.atTime n) hp, hnow, hwrite, mapNext,
      apply_ite (State.atTime n)]
    rfl

/-- A command that neither reads STATUS nor writes the low-noise code to ADDR_PWR_MGMT does the same at
every time (40_bus_protocol.md R139). -/
theorem exec_atTime {i : Instr} {s : State} (n : Time)
    (hread : readTarget i s ≠ some s.config.addrStatus.toNat)
    (hwrite : ∀ v, writeTarget i s = some (s.config.addrPwrMgmt.toNat, v) →
      modeField s.config v ≠ s.config.modeLowNoise) :
    exec i (s.atTime n) = mapNext (State.atTime n) (exec i s) := by
  cases hf : s.fatal with
  | true =>
    rw [exec_of_halted i hf, exec_of_halted (s := s.atTime n) i hf]
    rfl
  | false =>
    cases hcell : accepted i s with
    | false =>
      have hcell' : accepted i (s.atTime n) = false := hcell
      rw [exec_of_not_accepted hcell hf, exec_of_not_accepted hcell' hf]
      rfl
    | true =>
      cases i with
      | startW a =>
        obtain ⟨hfsm, rfl⟩ := of_decide_eq_true hcell
        rw [exec_startW_idle hf hfsm]
        exact exec_startW_idle (s := s.atTime n) hf hfsm
      | startR a =>
        obtain ⟨hfsm, rfl⟩ := of_decide_eq_true hcell
        have hptr : s.ptr ≠ some s.config.addrStatus.toNat := by simpa [readTarget, hfsm] using hread
        calc exec (.startR s.config.devAddr) (s.atTime n)
            = readNext ((beginRead s).atTime n) := exec_startR_writeActive (s := s.atTime n) hf hfsm
          _ = mapNext (State.atTime n) (readNext (beginRead s)) := readNext_atTime n hptr
          _ = mapNext (State.atTime n) (exec (.startR s.config.devAddr) s) := by
            rw [exec_startR_writeActive hf hfsm]
      | byte b =>
        rcases of_decide_eq_true hcell with hfsm | ⟨hfsm, henabled⟩
        · rw [exec_byte_registerSelect hf hfsm]
          exact exec_byte_registerSelect (s := s.atTime n) hf hfsm
        · rw [exec_byte_writeActive hf hfsm henabled,
            exec_byte_writeActive (s := s.atTime n) hf hfsm henabled]
          exact writeNext_atTime n fun hp => hwrite b (by simp [writeTarget, hfsm, henabled, hp])
      | ack =>
        have hfsm : s.fsm = .readActive := of_decide_eq_true hcell
        rw [exec_ack_readActive hf hfsm, exec_ack_readActive (s := s.atTime n) hf hfsm]
        exact readNext_atTime n (by simpa [readTarget, hfsm] using hread)
      | nackStop =>
        have hfsm : s.fsm = .readActive := of_decide_eq_true hcell
        rw [exec_nackStop_readActive hf hfsm]
        exact exec_nackStop_readActive (s := s.atTime n) hf hfsm
      | stop =>
        obtain ⟨hfsm, henabled⟩ := of_decide_eq_true hcell
        rw [exec_stop_writeActive hf hfsm henabled]
        exact exec_stop_writeActive (s := s.atTime n) hf hfsm henabled
      | busMalformed => simp [accepted] at hcell
      | readByte r =>
        have hr : r.toNat ≠ s.config.addrStatus.toNat := fun h => hread (congrArg some h)
        have hnow : (s.atTime n).now = n := rfl
        rw [exec_readByte hf, exec_readByte (s := s.atTime n) hf, hnow, regRead_atTime n hr]
        rfl
      | writeByte r v =>
        have hv := regWrite_atTime (a := r.toNat) n fun h => hwrite v (by rw [← h]; rfl)
        have hnow : (s.atTime n).now = n := rfl
        rw [exec_writeByte hf, exec_writeByte (s := s.atTime n) hf, hnow, hv, mapNext,
          apply_ite (State.atTime n)]
        rfl
      | regUnrecognized =>
        rw [exec_regUnrecognized hf]
        exact exec_regUnrecognized (s := s.atTime n) hf

/-! ## The protocol state, the end of a session, and commands without an access -/

/-- The transitions of `fsm` that the list of 40_bus_protocol.md R138 has. -/
def FsmTransition (x y : Fsm) : Prop :=
  (x, y) = (.idle, .registerSelect) ∨ (x, y) = (.registerSelect, .writeActive) ∨
    (x, y) = (.writeActive, .writeActive) ∨ (x, y) = (.writeActive, .readActive) ∨
    (x, y) = (.readActive, .readActive) ∨ y = .idle

theorem Effect.fsmTransition {s t : State} {i : Instr} (h : Effect s i t)
    (hport : i.onRegisterPort = false) : FsmTransition s.fsm t.fsm := by
  cases h with
  | aborted | endedRead | endedWrite => simp [FsmTransition]
  | opened a fsm | selected b fsm => simp [FsmTransition, fsm]
  | readFirst a p fsm | readOn p fsm => simp [FsmTransition, fsm]
  | wrote b p fsm | wroteFatal b p fsm => simp [FsmTransition, fsm]
  | portRead | portWrote | portWroteFatal | portUnrecognized => simp [Instr.onRegisterPort] at hport

/-- A state of the reference block in each protocol state, with register 0 selected where one is. -/
def stateIn : Fsm → State
  | .idle => State.reset
  | .registerSelect => { State.reset with fsm := .registerSelect, dir := some .write }
  | .writeActive => { State.reset with fsm := .writeActive, ptr := some 0, dir := some .write }
  | .readActive => { State.reset with fsm := .readActive, ptr := some 0, dir := some .read }

theorem stateIn_good (x : Fsm) : GoodState (stateIn x) := by
  cases x <;> decide

theorem stateIn_fsm (x : Fsm) : (stateIn x).fsm = x := by
  cases x <;> rfl

theorem stateIn_fatal (x : Fsm) : (stateIn x).fatal = false := by
  cases x <;> rfl

/-- A bus command takes some good state from `x` to `y`. -/
def BusTransition (x y : Fsm) : Prop :=
  ∃ (i : Instr) (s t : State), i.onRegisterPort = false ∧ GoodState s ∧ exec i s = .next t ∧
    s.fsm = x ∧ t.fsm = y

theorem busTransition_of_exec (x : Fsm) (i : Instr) {t : State} (hport : i.onRegisterPort = false)
    (hexec : exec i (stateIn x) = .next t) : BusTransition x t.fsm :=
  ⟨i, stateIn x, t, hport, stateIn_good x, hexec, stateIn_fsm x, rfl⟩

/-- After PERR or EOT the session is over and nothing else has changed (40_bus_protocol.md R121, R122). -/
theorem Effect.eq_of_session_over {s t : State} {i : Instr} (h : Effect s i t)
    (hrsp : t.rsp = some .perr ∨ t.rsp = some .eot) :
    t = { s with fsm := .idle, ptr := none, dir := none, rsp := t.rsp } := by
  cases h with
  | aborted | endedRead | endedWrite => rfl
  | opened | selected | readFirst | readOn | wrote | wroteFatal | portRead | portWrote
  | portWroteFatal | portUnrecognized => simp at hrsp

/-- A command that accesses no register leaves the register file and the acquisition state
(40_bus_protocol.md R137). -/
theorem Effect.registers_of_no_access {s t : State} {i : Instr} (h : Effect s i t)
    (hread : readTarget i s = none) (hwrite : writeTarget i s = none) :
    t.cfg = s.cfg ∧ t.data = s.data ∧ t.last = s.last ∧ t.idx = s.idx ∧ t.fatal = s.fatal := by
  cases h with
  | aborted | opened | selected | endedRead | endedWrite | portUnrecognized =>
    exact ⟨rfl, rfl, rfl, rfl, rfl⟩
  | readFirst a p fsm addr ptr => simp [readTarget, fsm, addr, ptr] at hread
  | readOn p fsm ptr => simp [readTarget, fsm, ptr] at hread
  | portRead => simp [readTarget] at hread
  | wrote b p fsm enabled ptr | wroteFatal b p fsm enabled ptr =>
    simp [writeTarget, fsm, enabled, ptr] at hwrite
  | portWrote | portWroteFatal => simp [writeTarget] at hwrite

/-- An answer to an update that keeps the session, with the session's fields written out. -/
theorem State.respond_of_session {s : State} {f : Fsm} {p : Option Nat} {d : Option Direction}
    (r : Rsp) (hfsm : s.fsm = f) (hptr : s.ptr = p) (hdir : s.dir = d) :
    s.respond r = { s with fsm := f, ptr := p, dir := d, rsp := some r } := by
  subst hfsm hptr hdir
  rfl

/-! ## The statements -/

/-- Settles O24: each effect of a bus command makes a transition of the list, and each transition of the
list is made from `stateIn`; BUS_MALFORMED leads to IDLE from everywhere. -/
theorem fsmTransitionsOfTable : Obligations.FsmTransitionsOfTable := by
  intro x y
  constructor
  · rintro ⟨i, s, t, hport, -, hexec, rfl, rfl⟩
    obtain ⟨-, heffect⟩ := exec_effect hexec
    exact heffect.fsmTransition hport
  · rintro (h | h | h | h | h | rfl)
    case inr.inr.inr.inr.inr =>
      exact busTransition_of_exec x .busMalformed rfl (exec_of_not_accepted rfl (stateIn_fatal x))
    all_goals obtain ⟨rfl, rfl⟩ := Prod.mk.inj h
    · exact busTransition_of_exec .idle (.startW (stateIn .idle).config.devAddr) rfl
        (exec_startW_idle rfl rfl)
    · exact busTransition_of_exec .registerSelect (.byte 0x00#8) rfl (exec_byte_registerSelect rfl rfl)
    · exact busTransition_of_exec .writeActive (.byte 0x00#8) rfl
        ((exec_byte_writeActive rfl rfl rfl).trans (writeNext_of_ptr rfl))
    · exact busTransition_of_exec .writeActive (.startR (stateIn .writeActive).config.devAddr) rfl
        ((exec_startR_writeActive rfl rfl).trans (readNext_of_ptr rfl))
    · exact busTransition_of_exec .readActive .ack rfl
        ((exec_ack_readActive rfl rfl).trans (readNext_of_ptr rfl))

/-- Settles O25: only `Abort` and `EndSession` answer PERR or EOT (`Effect.eq_of_session_over`), and the
cell of START_R in IDLE is `Abort`. -/
theorem nothingOutlivesSession : Obligations.NothingOutlivesSession := by
  refine ⟨fun i s t hexec hrsp => ?_, fun a s t hfsm hexec => ?_⟩
  · obtain ⟨-, heffect⟩ := exec_effect hexec
    exact heffect.eq_of_session_over hrsp
  · obtain ⟨hf, -⟩ := exec_effect hexec
    have hcell : accepted (.startR a) s = false := by simp [accepted, hfsm]
    rw [exec_of_not_accepted hcell hf] at hexec
    cases hexec
    rfl

/-- Settles O27: START_R reads the first register under the session it opens, and the ACKs that follow are
the burst of `ackBurst_eq_readSequence`. -/
theorem burstReadLaw : Obligations.BurstReadLaw := by
  intro s r t0 t1 ts hf hfsm
  obtain ⟨e, hread, hfsm₂, hp, hrsp⟩ := readNext_withSessionOf (s := s) (p := r.toNat)
    (e := { s with fsm := .readActive, dir := some .read, ptr := some r.toNat, now := t1
                   rsp := some .ack }) rfl
  have hconfig : (regRead r.toNat t1 s).2.config = s.config := regRead_config r.toNat t1 s
  obtain ⟨e', hburst, hfsm', hp'⟩ := ackBurst_eq_readSequence ts (s := (regRead r.toNat t1 s).2)
    ((regRead_fatal r.toNat t1 s).trans hf) hfsm₂ hp (hconfig ▸ nextPtr_lt s.config r.toNat)
  refine ⟨_, (regRead r.toNat t1 s).2.withSessionOf e,
    (readSequence (t1 :: ts) r.toNat s).2.withSessionOf e', _, _, exec_byte_registerSelect hf hfsm, ?_,
    hrsp, hburst, rfl, hfsm', ?_, rfl, rfl, rfl, rfl,
    (readSequence_fatal (t1 :: ts) r.toNat s).trans hf⟩
  · exact (exec_startR_writeActive
      (s := { s with fsm := .writeActive, ptr := some r.toNat, now := t1, rsp := some .ack })
      hf rfl).trans hread
  · calc e'.ptr
        = some ((nextPtr s.config r.toNat + ts.length) % 2 ^ s.config.ptrWidth) := hconfig ▸ hp'
      _ = some ((r.toNat + 1 + ts.length) % 2 ^ s.config.ptrWidth) := by rw [nextPtr, Nat.mod_add_mod]

/-- Settles O37: by the effects of a command, and the cells outside the table have no target. -/
theorem onlyAccessesTouchRegisters : Obligations.OnlyAccessesTouchRegisters := by
  intro i s t hexec
  obtain ⟨-, heffect⟩ := exec_effect hexec
  refine ⟨heffect.registers_of_no_access, ?_⟩
  rintro (hcell | ⟨a, rfl⟩ | rfl | rfl | rfl | rfl | ⟨⟨b, rfl⟩, hfsm⟩)
  · exact targets_of_not_accepted (busPort_of_not_accepted hcell) hcell
  case inr.inr.inr.inr.inr.inr => exact ⟨rfl, by simp [writeTarget, hfsm]⟩
  all_goals exact ⟨rfl, rfl⟩

/-- Settles O53 (`exec_atTime`). -/
theorem timeMattersOnlyToScheduleAccesses : Obligations.TimeMattersOnlyToScheduleAccesses :=
  fun _ _ n => exec_atTime n

/-- Settles O15: the one accepting cell, and `Abort` in all others (`exec_of_not_accepted`). -/
theorem startWOpensOnlyFromIdle : Obligations.StartWOpensOnlyFromIdle := by
  intro a s hf
  refine ⟨?_, decodeOfEncode (.startW a), textOfCommandReadsBack (.startW a)⟩
  split
  · next h =>
    obtain ⟨hfsm, rfl⟩ := h
    exact exec_startW_idle hf hfsm
  · next h => exact exec_of_not_accepted (decide_eq_false h) hf

/-- Settles O16: IDLE and READ_ACTIVE are no accepting cells of BYTE (`exec_of_not_accepted`). -/
theorem byteSelectsRegister : Obligations.ByteSelectsRegister := by
  intro b s hf
  refine ⟨exec_byte_registerSelect hf, fun hfsm => ?_, decodeOfEncode (.byte b),
    textOfCommandReadsBack (.byte b)⟩
  have hcell : accepted (.byte b) s = false := by
    rcases hfsm with hfsm | hfsm <;> simp [accepted, hfsm]
  exact exec_of_not_accepted hcell hf

/-- Settles O17: the write at the pointer keeps the session (`State.respond_of_session`), and only a write
that is not fatal advances the pointer. -/
theorem byteWritesAtPointer : Obligations.ByteWritesAtPointer := by
  intro b s p hf hfsm hp
  split
  · next henabled =>
    have hfsm' : (regWrite p b s.now s).fsm = .writeActive := (regWrite_fsm ..).trans hfsm
    have hp' : (regWrite p b s.now s).ptr = some p := (regWrite_ptr ..).trans hp
    have hdir' : (regWrite p b s.now s).dir = s.dir := regWrite_dir ..
    rw [exec_byte_writeActive hf hfsm henabled, writeNext_of_ptr hp]
    exact congrArg _ (if_congr Iff.rfl (State.respond_of_session .fatal hfsm' hp' hdir')
      (State.respond_of_session .ack hfsm' rfl hdir'))
  · next hdisabled =>
    have hcell : accepted (.byte b) s = false := by simp [accepted, hfsm, hdisabled]
    exact exec_of_not_accepted hcell hf

/-- Settles O18: the read at the pointer does not look at the session that START_R turns round
(`regRead_beginRead`). -/
theorem startRReadsFirstByte : Obligations.StartRReadsFirstByte := by
  intro a s hf
  refine ⟨fun p hfsm ha hp => ?_, fun hnot => exec_of_not_accepted (decide_eq_false hnot) hf,
    decodeOfEncode (.startR a), textOfCommandReadsBack (.startR a)⟩
  subst ha
  rw [exec_startR_writeActive hf hfsm, readNext_of_ptr (s := beginRead s) hp, regRead_beginRead]
  rfl

/-- Settles O19: the read keeps the session but for the pointer (`State.respond_of_session`). -/
theorem ackReadsNextByte : Obligations.AckReadsNextByte := by
  intro s hf
  refine ⟨fun p hfsm hp => ?_, fun hnot => exec_of_not_accepted (decide_eq_false hnot) hf,
    decodeOfEncode .ack, textOfCommandReadsBack .ack⟩
  have hfsm' : (regRead p s.now s).2.fsm = .readActive := (regRead_fsm ..).trans hfsm
  rw [exec_ack_readActive hf hfsm, readNext_of_ptr hp]
  exact congrArg _ (State.respond_of_session _ hfsm' rfl (regRead_dir ..))

/-- Settles O20: `EndSession` in the accepting cell, `Abort` in all others; they differ in
the response only. -/
theorem nackStopEndsRead : Obligations.NackStopEndsRead := by
  intro s hf
  refine ⟨?_, decodeOfEncode .nackStop, textOfCommandReadsBack .nackStop⟩
  split
  · next hfsm => exact exec_nackStop_readActive hf hfsm
  · next hnot => exact exec_of_not_accepted (decide_eq_false hnot) hf

/-- Settles O21: `EndSession` in the accepting cell, `Abort` in all others; they differ in
the response only. -/
theorem stopEndsWriteOnlyIfEnabled : Obligations.StopEndsWriteOnlyIfEnabled := by
  intro s hf
  refine ⟨?_, decodeOfEncode .stop, textOfCommandReadsBack .stop⟩
  split
  · next h =>
    obtain ⟨hfsm, henabled⟩ := h
    exact exec_stop_writeActive hf hfsm henabled
  · next hnot => exact exec_of_not_accepted (decide_eq_false hnot) hf

/-- Settles O22: the command has no accepting cell. -/
theorem busMalformedAborts : Obligations.BusMalformedAborts := fun _ hf =>
  ⟨exec_of_not_accepted rfl hf, decodeOfEncode .busMalformed, textOfCommandReadsBack .busMalformed⟩

end Sys2Proof.Machine

/-! # Proofs for the statements on 41_register_access.md

First what a register access does, one equation per category of the address; then the answer of a write
through the register port, and the register-port commands under another session. Then the statements. -/

namespace Sys2Proof.Machine

open Sys2Proof

/-! ## Register reads and writes by category -/

theorem regRead_configRegister {a : Nat} {s : State} (now : Time)
    (h : category s.config a = .config) : regRead a now s = (s.cfgByte a, s) := by
  simp [regRead, h]

theorem regRead_dataRegister {a : Nat} {s : State} {k : DataReg} (now : Time)
    (h : category s.config a = .data k) : regRead a now s = (perDataGet s.data k, s) := by
  simp [regRead, h]

theorem regWrite_configRegister {a : Nat} {s : State} (v : Byte) (now : Time)
    (h : category s.config a = .config) : regWrite a v now s =
      if a = s.config.addrPwrMgmt.toNat then pwrWrite v now (s.setCfgByte a v)
      else s.setCfgByte a v := by
  simp [regWrite, h]

/-- A write to a status, data or unmapped address is ignored (41_register_access.md R170). -/
theorem regWrite_readOnly {a : Nat} {s : State} (v : Byte) (now : Time)
    (h : category s.config a ≠ .config) : regWrite a v now s = s := by
  rcases regWrite_cases a v now s with ⟨-, hw⟩ | ⟨hcat, -⟩ | ⟨hcat, -⟩
  · exact hw
  · exact absurd hcat h
  · exact absurd hcat h

/-- A register write stores its byte before the mode is examined, and a fatal mode leaves it stored
(41_register_access.md R167). -/
theorem regWrite_cfgByte_same {a : Nat} {s : State} (v : Byte) (now : Time) (hs : CfgInv s)
    (h : category s.config a = .config) : (regWrite a v now s).cfgByte a = v := by
  obtain ⟨hwf, -⟩ := hs
  have hstored : (s.setCfgByte a v).cfgByte a = v := State.cfgByte_setCfgByte_same a v hwf
  rw [regWrite_configRegister v now h]
  split
  · exact (cfgByte_congr (pwrWrite_config ..) (pwrWrite_cfg ..) a).trans hstored
  · exact hstored

/-! ## The register port -/

/-- WRITE_BYTE answers by the latch that its register write leaves (41_register_access.md R164). -/
theorem exec_writeByte_respond {r v : Byte} {s : State} (hf : s.fatal = false) :
    exec (.writeByte r v) s = .next ((regWrite r.toNat v s.now s).respond
      (if (regWrite r.toNat v s.now s).fatal = true then .fatal else .success)) := by
  rw [exec_writeByte hf, apply_ite (State.respond _)]

/-- The state with another session. -/
def State.withSession (f : Fsm) (p : Option Nat) (d : Option Direction) (s : State) : State :=
  { s with fsm := f, ptr := p, dir := d }

section

variable (f : Fsm) (p : Option Nat) (d : Option Direction)

theorem regRead_withSession (a : Nat) (now : Time) (s : State) :
    regRead a now (s.withSession f p d) =
      ((regRead a now s).1, (regRead a now s).2.withSession f p d) := by
  have h := regRead_withSessionOf a now s (s.withSession f p d)
  simpa [State.withSessionOf, State.withSession] using h

theorem pwrWrite_withSession (v : Byte) (now : Time) (s : State) :
    pwrWrite v now (s.withSession f p d) = (pwrWrite v now s).withSession f p d := by
  unfold pwrWrite
  rw [apply_ite (State.withSession f p d), apply_ite (State.withSession f p d)]
  rfl

/-- A register write neither looks at the session nor touches it. -/
theorem regWrite_withSession (a : Nat) (v : Byte) (now : Time) (s : State) :
    regWrite a v now (s.withSession f p d) = (regWrite a v now s).withSession f p d := by
  by_cases h : category s.config a = .config
  · have hpwr := pwrWrite_withSession f p d v now (s.setCfgByte a v)
    rw [regWrite_configRegister v now h, regWrite_configRegister (s := s.withSession f p d) v now h,
      apply_ite (State.withSession f p d), ← hpwr]
    rfl
  · rw [regWrite_readOnly v now h, regWrite_readOnly (s := s.withSession f p d) v now h]

/-- A register-port command does the same under every session (41_register_access.md R169). -/
theorem exec_withSession {i : Instr} (s : State) (hport : i.onRegisterPort = true) :
    exec i (s.withSession f p d) = mapNext (State.withSession f p d) (exec i s) := by
  cases hf : s.fatal with
  | true =>
    rw [exec_of_halted i hf, exec_of_halted (s := s.withSession f p d) i hf]
    rfl
  | false =>
    have hnow : (s.withSession f p d).now = s.now := rfl
    cases i with
    | readByte r =>
      rw [exec_readByte hf, exec_readByte (s := s.withSession f p d) hf, hnow, regRead_withSession]
      rfl
    | writeByte r v =>
      rw [exec_writeByte_respond hf, exec_writeByte_respond (s := s.withSession f p d) hf, hnow,
        regWrite_withSession]
      rfl
    | regUnrecognized =>
      rw [exec_regUnrecognized hf]
      exact exec_regUnrecognized (s := s.withSession f p d) hf
    | startW | startR | byte | ack | nackStop | stop | busMalformed =>
      simp [Instr.onRegisterPort] at hport

end

/-- Under the session it already has, a register-port command gives the same outcome, whose session is
that one. -/
theorem session_of_registerPort {i : Instr} {s t : State} (hport : i.onRegisterPort = true)
    (hexec : exec i s = .next t) : t.fsm = s.fsm ∧ t.ptr = s.ptr ∧ t.dir = s.dir := by
  have hsame : exec i s = mapNext (State.withSession s.fsm s.ptr s.dir) (exec i s) :=
    exec_withSession s.fsm s.ptr s.dir s hport
  rw [hexec] at hsame
  have ht : t = t.withSession s.fsm s.ptr s.dir := Host.Outcome.next.inj hsame
  rw [ht]
  exact ⟨rfl, rfl, rfl⟩

/-- The configuration register at `a` holds `v` under the configuration of `s`: what commands that do not
write the register keep. -/
def HoldsByte (s : State) (a : Nat) (v : Byte) (t : State) : Prop :=
  t.config = s.config ∧ t.cfgByte a = v

theorem sparesRegister_iff {a : Nat} {i : Instr} {s : State} :
    sparesRegister a i s = true ↔ ∀ v, writeTarget i s ≠ some (a, v) := by
  simp [sparesRegister]

theorem HoldsByte.after_exec {s t u : State} {a : Nat} {v : Byte} {n : Time} {i : Instr}
    (h : HoldsByte s a v t) (hok : sparesRegister a i { t with now := n } = true)
    (hexec : exec i { t with now := n } = .next u) : HoldsByte s a v u := by
  obtain ⟨hconfig, hbyte⟩ := h
  obtain ⟨-, heffect⟩ := exec_effect hexec
  exact ⟨heffect.config_eq.trans hconfig,
    (heffect.cfgByte_other (sparesRegister_iff.1 hok)).trans hbyte⟩

/-! ## The statements -/

/-- Settles O30: the state that has taken the byte is `setCfgByte`, which stores at one address. -/
theorem regWriteStoresOneByte : Obligations.RegWriteStoresOneByte := by
  intro a v now s ⟨hwf, _⟩
  refine ⟨regWrite_readOnly v now, fun hcat => ⟨s.setCfgByte a v, rfl, ?_, ?_, ?_⟩⟩
  · exact State.cfgByte_setCfgByte_same a v hwf
  · exact fun b hb => State.cfgByte_setCfgByte_other v hb
  · exact regWrite_configRegister v now hcat

/-- Settles O38 (`exec_withSession`); that the session is left as it was follows from it. -/
theorem registerPortIgnoresSession : Obligations.RegisterPortIgnoresSession :=
  fun _ s f p d hport => ⟨exec_withSession f p d s hport, fun _ => session_of_registerPort hport⟩

/-- Settles O39, by induction along the sequence: the write leaves its byte in the register
(`regWrite_cfgByte_same`), and each command that spares the register keeps it there
(`HoldsByte.after_exec`). A fatal write stores its byte too, so the premise against it is not used. -/
theorem configWriteReadsBack : Obligations.ConfigWriteReadsBack := by
  intro s u a v now now' cs hs hcat _ hrun
  have hstart : HoldsByte s a v (regWrite a v now s) :=
    ⟨regWrite_config .., regWrite_cfgByte_same v now hs hcat⟩
  have hend : HoldsByte s a v u :=
    execWhile_induction (P := HoldsByte s a v) (fun _ _ _ _ h => h.after_exec) hstart hrun
  obtain ⟨hconfig, hbyte⟩ := hend
  rw [regRead_configRegister now' (hconfig ▸ hcat)]
  exact hbyte

/-- Settles O29. -/
theorem regReadByCategory : Obligations.RegReadByCategory := fun _ now _ =>
  ⟨regRead_configRegister now, regRead_status now, fun _ => regRead_dataRegister now,
    regRead_unmapped now⟩

/-- Settles O31: the two supported codes are examined in turn, and the field is the arithmetic one
(`modeField_toNat`). -/
theorem pwrWriteByModeField : Obligations.PwrWriteByModeField := by
  intro v now s
  refine ⟨modeField_toNat s.config v, fun hlow => if_pos hlow, fun hlow hdis => ?_, fun hlow hdis => ?_⟩
  · exact (if_neg hlow).trans (if_pos hdis)
  · exact (if_neg hlow).trans (if_neg hdis)

/-- Settles O32: the read keeps the session (`State.respond_of_session`). -/
theorem readByteReturnsRegister : Obligations.ReadByteReturnsRegister := by
  intro r s hf
  refine ⟨?_, decodeOfEncode (.readByte r), textOfCommandReadsBack (.readByte r)⟩
  rw [exec_readByte hf]
  exact congrArg _ (State.respond_of_session _ (regRead_fsm ..) (regRead_ptr ..) (regRead_dir ..))

/-- Settles O33: the write keeps the session (`State.respond_of_session`). -/
theorem writeByteAnswersSuccessOrFatal : Obligations.WriteByteAnswersSuccessOrFatal := by
  intro r v s hf
  refine ⟨?_, decodeOfEncode (.writeByte r v), textOfCommandReadsBack (.writeByte r v)⟩
  rw [exec_writeByte_respond hf]
  exact congrArg _ (State.respond_of_session _ (regWrite_fsm ..) (regWrite_ptr ..) (regWrite_dir ..))

/-- Settles O34. -/
theorem regUnrecognizedChangesNothing : Obligations.RegUnrecognizedChangesNothing := fun _ hf =>
  ⟨exec_regUnrecognized hf, decodeOfEncode .regUnrecognized, textOfCommandReadsBack .regUnrecognized⟩

/-- Settles O35: on either port the write leaves the running state (`regWrite_readOnly`), so the answer is
the one of a write that is not fatal. -/
theorem readOnlyWritesAreIgnored : Obligations.ReadOnlyWritesAreIgnored := by
  intro s v hf
  have hrunning : ¬s.fatal = true := by simp [hf]
  refine ⟨fun r hcat => ?_, fun p hcat hfsm henabled hp => ?_⟩
  · rw [exec_writeByte hf, regWrite_readOnly v s.now hcat, if_neg hrunning]
    rfl
  · rw [exec_byte_writeActive hf hfsm henabled, writeNext_of_ptr hp, regWrite_readOnly v s.now hcat,
      if_neg hrunning]
    rfl

end Sys2Proof.Machine

/-! # Proofs for the statements on 42_acquisition.md

First the facts about the engine, in the order of its definitions: rounding, the encoding, the samples,
the readiness check and repeated pulls. Then what a command does to the acquisition state, and how far a
schedule has run after a sequence of commands. Then the statements. -/

namespace Sys2Proof.Machine

open Sys2Proof

/-! ## Rounding -/

/-- A tie goes to one of its two neighbours. -/
theorem roundTie_eq_or (ties : RoundTies) (f : Int) :
    roundTie ties f = f ∨ roundTie ties f = f + 1 := by
  cases ties with
  | toEven => exact ite_eq_or_eq ..
  | awayFromZero | unspecified => exact (ite_eq_or_eq ..).symm

/-- Ties-to-even goes to the even neighbour. -/
theorem roundTie_toEven_even (f : Int) : roundTie .toEven f % 2 = 0 := by
  simp only [roundTie]
  split <;> omega

/-- Adding an even integer to a tie does not change which of its neighbours is even. -/
theorem roundTie_toEven_add {k : Int} (hk : 2 ∣ k) (f : Int) :
    roundTie .toEven (f + k) = roundTie .toEven f + k := by
  simp only [roundTie]
  split <;> split <;> omega

/-- The distances of a rational to its two neighbours. -/
theorem abs_sub_floor (v : ℚ) : |v - (⌊v⌋ : ℚ)| = Int.fract v := by
  rw [Int.self_sub_floor, Int.abs_fract]

theorem abs_sub_floor_add_one (v : ℚ) : |v - ((⌊v⌋ + 1 : Int) : ℚ)| = 1 - Int.fract v := by
  have hneg : v - ((⌊v⌋ + 1 : Int) : ℚ) = -(1 - Int.fract v) := by
    rw [Int.fract]
    push_cast
    ring
  rw [hneg, abs_neg, abs_of_pos (sub_pos.2 (Int.fract_lt_one v))]

/-- Every tie rule rounds to within 1/2, and reaches 1/2 only on a tie. -/
theorem roundRat_cases (ties : RoundTies) (v : ℚ) :
    |v - (roundRat ties v : ℚ)| < 1 / 2 ∨
      |v - (roundRat ties v : ℚ)| = 1 / 2 ∧ roundRat ties v = roundTie ties ⌊v⌋ := by
  unfold roundRat
  split_ifs with hlow hhigh
  · exact .inl (by rwa [abs_sub_floor])
  · exact .inl (by rw [abs_sub_floor_add_one]; linarith)
  · have htie : Int.fract v = 1 / 2 := by linarith
    refine .inr ⟨?_, rfl⟩
    rcases roundTie_eq_or ties ⌊v⌋ with h | h
    · rw [h, abs_sub_floor, htie]
    · rw [h, abs_sub_floor_add_one, htie]
      norm_num

/-- Ties-to-even rounds `v + k` to the rounded `v` plus `k`, for an even integer `k`. -/
theorem roundRat_toEven_add {k : Int} (hk : 2 ∣ k) (v : ℚ) :
    roundRat .toEven (v + k) = roundRat .toEven v + k := by
  simp only [roundRat, Int.fract_add_intCast, Int.floor_add_intCast, roundTie_toEven_add hk]
  split_ifs <;> ring

/-- An integer is its own nearest integer. -/
theorem roundRatio_den_one (ties : RoundTies) (n : Int) : roundRatio ties ⟨n, 1⟩ = n := by
  simp [roundRatio]

/-! ## The encoding -/

/-- The product is the exact one (42_acquisition.md R194). -/
theorem timesInt_value (q : Ratio) (k : Int) :
    ((timesInt q k).num : ℚ) / ((timesInt q k).den : ℚ) = (q.num : ℚ) / (q.den : ℚ) * k := by
  simp only [timesInt, Int.cast_mul]
  ring

theorem encode16_toNat (c : Config) (q : Ratio) :
    ((encode16 c q).toNat : Int) = roundRatio c.roundTies (timesInt q 16384) % 65536 := by
  rw [encode16, BitVec.toNat_ofInt, Int.toNat_of_nonneg (Int.emod_nonneg _ (by decide))]
  rfl

/-- The two bytes of an encoded component are the whole of it (42_acquisition.md R195). -/
theorem highByte_append_lowByte (raw : BitVec 16) : highByte raw ++ lowByte raw = raw :=
  BitVec.extractLsb'_append_extractLsb' (w := 8) (len := 8)

/-! ## The samples -/

/-- The dataset is read at the position modulo its length (42_acquisition.md R196). -/
theorem sampleAt_mod (c : Config) (i : Nat) : sampleAt c (i % c.dataset.length) = sampleAt c i := by
  simp [sampleAt]

theorem sampleAt_of_getElem?_mod {c : Config} {i : Nat} {p : Sample}
    (h : c.dataset[i % c.dataset.length]? = some p) : sampleAt c i = p := by
  simp [sampleAt, h]

theorem sampleAt_of_getElem? {c : Config} {i : Nat} {p : Sample} (h : c.dataset[i]? = some p) :
    sampleAt c i = p := by
  obtain ⟨hi, -⟩ := List.getElem?_eq_some_iff.1 h
  exact sampleAt_of_getElem?_mod (by rwa [Nat.mod_eq_of_lt hi])

/-! ## The readiness check -/

theorem isNewDataReady_due {s : State} {t now : Time} (hlast : s.last = some t)
    (hdue : t + s.config.odrTicks < now) :
    isNewDataReady now s = (true, { pull s with last := some (t + s.config.odrTicks) }) := by
  simp [isNewDataReady, hlast, sampleDue, hdue]

theorem isNewDataReady_notDue {s : State} {t now : Time} (hlast : s.last = some t)
    (hdue : ¬t + s.config.odrTicks < now) : isNewDataReady now s = (false, s) := by
  simp [isNewDataReady, hlast, sampleDue, hdue]

/-! ## Repeated pulls and checks -/

theorem repeatPull_config (n : Nat) (s : State) : (repeatPull n s).config = s.config := by
  induction n with
  | zero => rfl
  | succ n ih => exact ih

/-- The dataset position moves by one for each pull, modulo the length (42_acquisition.md R196). -/
theorem repeatPull_idx (n : Nat) {s : State} (hidx : s.idx % s.config.dataset.length = s.idx) :
    (repeatPull n s).idx = (s.idx + n) % s.config.dataset.length := by
  induction n with
  | zero => exact hidx.symm
  | succ n ih => rw [repeatPull, pull_idx, repeatPull_config, ih, Nat.mod_add_mod, Nat.add_assoc]

/-- Pulls do not look at the schedule. -/
theorem repeatPull_pull_last (n : Nat) (s : State) (x : Option Time) :
    repeatPull n { pull s with last := x } = { repeatPull (n + 1) s with last := x } := by
  induction n with
  | zero => rfl
  | succ n ih =>
    rw [repeatPull, ih]
    rfl

/-- With `k` intervals strictly elapsed, `k` checks at one time pull `k` samples. -/
theorem repeatCheck_due (k : Nat) {s : State} {t now : Time} (hlast : s.last = some t)
    (hdue : t + k * s.config.odrTicks < now) :
    repeatCheck now k s =
      (List.replicate k true, { repeatPull k s with last := some (t + k * s.config.odrTicks) }) := by
  induction k generalizing s t with
  | zero =>
    rw [Nat.zero_mul, Nat.add_zero, ← hlast]
    rfl
  | succ k ih =>
    have hsum : t + (k + 1) * s.config.odrTicks =
        t + s.config.odrTicks + k * s.config.odrTicks := by ring
    rw [hsum] at hdue ⊢
    have hfirst := isNewDataReady_due hlast (Nat.lt_of_le_of_lt (Nat.le_add_right _ _) hdue)
    have hrest := ih (s := { pull s with last := some (t + s.config.odrTicks) }) rfl hdue
    simp only [repeatCheck, hfirst, hrest, repeatPull_pull_last, List.replicate_succ]
    rfl

/-! ## What a command does to the acquisition state -/

/-- The schedule, the dataset position and the data registers are those of `s`. -/
def SameAcquisition (s t : State) : Prop := t.last = s.last ∧ t.idx = s.idx ∧ t.data = s.data

/-- One sample of `s` was pulled, one interval after the last (42_acquisition.md R192, R193). -/
def PulledOne (s t : State) : Prop :=
  ∃ x, s.last = some x ∧ t.last = some (x + s.config.odrTicks) ∧
    t.idx = (s.idx + 1) % s.config.dataset.length ∧
    t.data = sampleBytes s.config (sampleAt s.config s.idx)

/-- A register read leaves the acquisition state, or it reads STATUS, pulls one sample and returns 1
(42_acquisition.md R199). -/
theorem regRead_acquisition (a : Nat) (now : Time) (s : State) :
    SameAcquisition s (regRead a now s).2 ∨
      a = s.config.addrStatus.toNat ∧ (regRead a now s).1 = 0x01#8 ∧
        PulledOne s (regRead a now s).2 := by
  by_cases hstatus : category s.config a = .status
  · have haddr := inCategory_category s.config a
    rw [hstatus] at haddr
    rw [regRead_status now hstatus]
    rcases isNewDataReady_cases now s with h | ⟨x, hx, -, h⟩
    · exact .inl (by simp [h, SameAcquisition])
    · exact .inr ⟨haddr, by simp [h, statusByte], x, hx, by simp [h]⟩
  · rcases regRead_state a now s with h | ⟨h, -⟩
    · exact .inl (by simp [h, SameAcquisition])
    · exact absurd h hstatus

/-- A register write leaves the samples, and the schedule too unless it writes ADDR_PWR_MGMT. -/
theorem regWrite_acquisition {a : Nat} {s : State} (v : Byte) (now : Time)
    (ha : a ≠ s.config.addrPwrMgmt.toNat) : SameAcquisition s (regWrite a v now s) := by
  rcases regWrite_cases a v now s with ⟨-, h⟩ | ⟨-, -, h⟩ | ⟨-, h, -⟩
  · rw [h]
    exact ⟨rfl, rfl, rfl⟩
  · rw [h]
    exact ⟨rfl, rfl, rfl⟩
  · exact absurd h ha

/-- The command reads STATUS, pulls one sample, and its response carries `0x01`. -/
def ReadsNewSample (i : Instr) (s t : State) : Prop :=
  readTarget i s = some s.config.addrStatus.toNat ∧
    (t.rsp = some (.ackData 0x01#8) ∨ t.rsp = some (.rdData 0x01#8)) ∧ PulledOne s t

/-- Everything a command that does not write ADDR_PWR_MGMT can do to the acquisition state. -/
theorem Effect.acquisition_cases {s t : State} {i : Instr} (h : Effect s i t)
    (hspares : ∀ v, writeTarget i s ≠ some (s.config.addrPwrMgmt.toNat, v)) :
    SameAcquisition s t ∨ ReadsNewSample i s t := by
  cases h with
  | readFirst a p fsm addr ptr =>
    exact (regRead_acquisition p s.now (beginRead s)).imp_right fun ⟨ha, hone, hpull⟩ =>
      ⟨by simpa [readTarget, fsm, addr, ptr] using ha, .inl (by simp [hone]), hpull⟩
  | readOn p fsm ptr =>
    exact (regRead_acquisition p s.now s).imp_right fun ⟨ha, hone, hpull⟩ =>
      ⟨by simpa [readTarget, fsm, ptr] using ha, .inl (by simp [hone]), hpull⟩
  | portRead r =>
    exact (regRead_acquisition r.toNat s.now s).imp_right fun ⟨ha, hone, hpull⟩ =>
      ⟨congrArg some ha, .inr (by simp [hone]), hpull⟩
  | wrote b p fsm enabled ptr | wroteFatal b p fsm enabled ptr =>
    have hp : p ≠ s.config.addrPwrMgmt.toNat := by
      simpa [writeTarget, fsm, enabled, ptr] using hspares
    exact .inl (regWrite_acquisition b s.now hp)
  | portWrote r v | portWroteFatal r v =>
    have hr : r.toNat ≠ s.config.addrPwrMgmt.toNat := fun h => hspares v (by simp [writeTarget, h])
    exact .inl (regWrite_acquisition v s.now hr)
  | aborted | opened | selected | endedRead | endedWrite | portUnrecognized =>
    exact .inl ⟨rfl, rfl, rfl⟩

/-- A command that reads a register writes none (20_memory.md R53). -/
theorem writeTarget_of_readTarget {i : Instr} {s : State} {a : Nat} (h : readTarget i s = some a) :
    writeTarget i s = none := by
  cases i with
  | startR | ack | readByte => rfl
  | startW | byte | nackStop | stop | busMalformed | writeByte | regUnrecognized =>
    simp [readTarget] at h

/-! ## How far a schedule has run -/

/-- `n` samples have been pulled since `s`, whose schedule started at `t0` (42_acquisition.md R203). The
configuration is part of it because it gives the interval and the dataset. -/
structure PulledSince (s : State) (t0 : Time) (n : Nat) (u : State) : Prop where
  config : u.config = s.config
  last : u.last = some (t0 + n * s.config.odrTicks)
  idx : u.idx = (s.idx + n) % s.config.dataset.length
  data : u.data = if n = 0 then s.data else sampleBytes s.config (sampleAt s.config (s.idx + n - 1))

theorem pulledSince_zero {s : State} {t0 : Time} (hidx : IdxInv s) (hlast : s.last = some t0) :
    PulledSince s t0 0 s :=
  ⟨rfl, by simp [hlast], (Nat.mod_eq_of_lt hidx).symm, rfl⟩

theorem PulledSince.same {s u v : State} {t0 : Time} {n : Nat} (h : PulledSince s t0 n u)
    (hconfig : v.config = u.config) (hsame : SameAcquisition u v) : PulledSince s t0 n v := by
  obtain ⟨hlast, hidx, hdata⟩ := hsame
  exact ⟨hconfig.trans h.config, hlast.trans h.last, hidx.trans h.idx, hdata.trans h.data⟩

theorem PulledSince.succ {s u v : State} {t0 : Time} {n : Nat} (h : PulledSince s t0 n u)
    (hconfig : v.config = u.config) (hpull : PulledOne u v) : PulledSince s t0 (n + 1) v := by
  obtain ⟨x, hx, hlast, hidx, hdata⟩ := hpull
  obtain rfl : x = t0 + n * s.config.odrTicks := Option.some.inj (hx.symm.trans h.last)
  refine ⟨hconfig.trans h.config, ?_, ?_, ?_⟩
  · rw [hlast, h.config, Nat.add_assoc, Nat.succ_mul]
  · rw [hidx, h.idx, h.config, Nat.mod_add_mod, Nat.add_assoc]
  · rw [hdata, h.idx, h.config, sampleAt_mod, if_neg n.succ_ne_zero, Nat.add_succ_sub_one]

/-- A command that spares ADDR_PWR_MGMT pulls one more sample or none. -/
theorem PulledSince.after_exec {s u v : State} {t0 : Time} {n : Nat} {now : Time} {i : Instr}
    (h : PulledSince s t0 n u)
    (hok : sparesRegister s.config.addrPwrMgmt.toNat i { u with now := now } = true)
    (hexec : exec i { u with now := now } = .next v) : ∃ m, PulledSince s t0 m v := by
  obtain ⟨-, heffect⟩ := exec_effect hexec
  have hconfig : v.config = u.config := heffect.config_eq
  rw [← h.config, sparesRegister_iff] at hok
  rcases heffect.acquisition_cases hok with hsame | ⟨-, -, hpull⟩
  · exact ⟨n, h.same hconfig hsame⟩
  · exact ⟨n + 1, h.succ hconfig hpull⟩

/-! ## The statements -/

/-- Settles O45: the model's integer arithmetic is `Round` of the rational (`roundRatio_eq_roundRat`),
which is at distance 1/2 only on a tie (`roundRat_cases`). -/
theorem roundIsNearest : Obligations.RoundIsNearest := by
  intro q hq
  simp only [roundRatio_eq_roundRat _ q hq]
  refine ⟨fun ties => ?_, fun hhalf => ?_⟩
  · exact (roundRat_cases ties _).elim le_of_lt fun ⟨h, _⟩ => h.le
  · rcases roundRat_cases .toEven ((q.num : ℚ) / (q.den : ℚ)) with h | ⟨-, h⟩
    · exact absurd hhalf h.ne
    · rw [h]
      exact roundTie_toEven_even _

/-- Settles O47: 4 is encoded as 65536, an even integer, so it moves `Round` by 65536
(`roundRat_toEven_add`), which the low 16 bits do not show. -/
theorem encodingWrapsByFour : Obligations.EncodingWrapsByFour := by
  intro c ⟨num, den⟩ hties
  by_cases hden : den = 0
  · simp [hden]
  have hvalue : ((num + 4 * (den : Int) : Int) : ℚ) / (den : ℚ) * 16384 =
      (num : ℚ) / (den : ℚ) * 16384 + ((65536 : Int) : ℚ) := by
    have hdenQ : (den : ℚ) ≠ 0 := Nat.cast_ne_zero.2 hden
    push_cast
    field_simp
    ring
  rw [encode16_eq_roundRat c ⟨num + 4 * den, den⟩ hden, encode16_eq_roundRat c ⟨num, den⟩ hden,
    hvalue, hties, roundRat_toEven_add (by decide), BitVec.ofInt_add]
  exact BitVec.add_zero _

/-- Settles O48: `k` checks pull `k` samples (`repeatCheck_due`), and the next one compares the time
with the schedule they leave. -/
theorem onePullPerCheck : Obligations.OnePullPerCheck := by
  intro k s t now _ hlast hdue
  have hchecks := repeatCheck_due k hlast hdue
  refine ⟨hchecks, fun hnext => ?_⟩
  rw [hchecks]
  refine isNewDataReady_notDue rfl ?_
  rw [repeatPull_config, Nat.add_assoc, ← Nat.succ_mul]
  exact hnext.not_gt

/-- Settles O49: the position after `n` pulls from 0 is `n` modulo the length (`repeatPull_idx`), and the
next pull takes the sample there. -/
theorem pullsCycleThroughDataset : Obligations.PullsCycleThroughDataset := by
  intro n s p hzero hp
  have hidx : (repeatPull n s).idx = n % s.config.dataset.length := by
    simpa [hzero] using repeatPull_idx n (s := s) (by simp [hzero])
  refine ⟨?_, hidx⟩
  rw [repeatPull, pull_data, hidx, repeatPull_config, sampleAt_of_getElem? hp]

/-- Settles O50, by induction along the sequence: each of its commands pulls one sample or none
(`PulledSince.after_exec`). -/
theorem scheduleStaysOnGrid : Obligations.ScheduleStaysOnGrid := by
  intro s u t0 cs hidx hlast hrun
  have hgrid : ∃ n, PulledSince s t0 n u :=
    execWhile_induction (P := fun u => ∃ n, PulledSince s t0 n u)
      (fun _ _ _ _ ⟨_, h⟩ => h.after_exec) ⟨0, pulledSince_zero hidx hlast⟩ hrun
  obtain ⟨n, hn⟩ := hgrid
  exact ⟨n, hn.last, hn.idx, hn.data⟩

/-- Settles O51: a command that moves the samples reads STATUS (`Effect.samples_eq`), so it writes no
register, and of what is left only a read that answers 1 moves them (`Effect.acquisition_cases`). -/
theorem samplesMoveOnlyByStatusRead : Obligations.SamplesMoveOnlyByStatusRead := by
  intro i s t hexec hmoved
  obtain ⟨-, heffect⟩ := exec_effect hexec
  have hnotKept : ¬(t.data = s.data ∧ t.idx = s.idx) := not_and_or.2 hmoved
  have hread : readTarget i s = some s.config.addrStatus.toNat :=
    not_imp_comm.1 heffect.samples_eq hnotKept
  have hspares : ∀ v, writeTarget i s ≠ some (s.config.addrPwrMgmt.toNat, v) := by
    simp [writeTarget_of_readTarget hread]
  rcases heffect.acquisition_cases hspares with ⟨-, hidx, hdata⟩ | ⟨-, hrsp, -⟩
  · exact absurd ⟨hdata, hidx⟩ hnotKept
  · exact ⟨hread, hrsp⟩

/-- Settles O42, one lemma for each answer of the check. -/
theorem readinessCheckIsStrict : Obligations.ReadinessCheckIsStrict := by
  refine fun now s => ⟨isNewDataReady_disabled now, fun t hlast => ?_⟩
  have hboundary := isNewDataReady_notDue hlast (Nat.lt_irrefl _)
  have hnextTick := isNewDataReady_due hlast (Nat.lt_succ_self _)
  exact ⟨isNewDataReady_due hlast, isNewDataReady_notDue hlast, by rw [hboundary], by rw [hnextTick]⟩

/-- Settles O43: the two bytes of each axis are the whole of its encoding (`highByte_append_lowByte`). -/
theorem pullStoresBigEndianSample : Obligations.PullStoresBigEndianSample := by
  intro s p hp
  simp only [pull_data, sampleAt_of_getElem? hp, sampleBytes, highByte_append_lowByte, pull_idx]
  exact ⟨trivial, trivial, trivial, trivial, rfl⟩

/-- Settles O44; the example is an integer, which every tie rule leaves as it is
(`roundRatio_den_one`). -/
theorem encodeIsRoundModulo : Obligations.EncodeIsRoundModulo := by
  refine fun c v => ⟨encode16_toNat c v, timesInt_value v 16384, ?_⟩
  calc encode16 c ⟨-1, 1⟩
      = BitVec.ofInt 16 (-16384) := congrArg (BitVec.ofInt 16) (roundRatio_den_one _ _)
    _ = 0xC000#16 := by decide

end Sys2Proof.Machine

/-! # Proofs for the statements on 60_exceptions.md

First what the agreement of the stored mode with the power state says of a running block; then which
register write is fatal and what it leaves, which command makes one, and which command aborts. Then the
statements. -/

namespace Sys2Proof.Machine

open Sys2Proof

/-! ## The stored mode of a running block -/

theorem modeLowNoise_ne_modeDisabled {c : Config} (h : c.wf = true) :
    c.modeLowNoise ≠ c.modeDisabled := by
  obtain ⟨-, -, -, -, -, hmode, -, -⟩ := Config.wf_iff_checks.1 h
  obtain ⟨hne, -⟩ := Config.modeOk_iff.1 hmode
  exact hne

/-- The two supported codes differ, so that the stored one tells the power state both ways
(60_exceptions.md R235). -/
theorem PowerInv.last_iff_storedMode {s : State} (hs : PowerInv s) (hwf : s.config.wf = true)
    (hf : s.fatal = false) :
    (s.last.isSome = true ↔ storedMode s = s.config.modeLowNoise) ∧
      (s.last = none ↔ storedMode s = s.config.modeDisabled) := by
  have hne := modeLowNoise_ne_modeDisabled hwf
  have hstored := (powerInv_running hf).1 hs
  cases hlast : s.last with
  | none =>
    have hoff : storedMode s = s.config.modeDisabled := by simpa [enabled, hlast] using hstored
    simp [hoff, hne.symm]
  | some x =>
    have hon : storedMode s = s.config.modeLowNoise := by simpa [enabled, hlast] using hstored
    simp [hon, hne]

/-! ## The fatal register write -/

/-- The power-management register has storage (00_scope.md R11(d)). -/
theorem category_addrPwrMgmt {c : Config} (h : c.wf = true) :
    category c c.addrPwrMgmt.toNat = .config := by
  obtain ⟨-, -, -, hlisted, -⟩ := Config.wf_iff_checks.1 h
  obtain ⟨v, hv⟩ := Config.pwrMgmtListed_iff.1 hlisted
  exact if_pos (isConfigAddr_iff.2 ⟨_, hv, rfl⟩)

/-- The byte is stored, then the latch is set (41_register_access.md R166, R167). -/
theorem regWrite_unsupported {v : Byte} {s : State} (now : Time) (hwf : s.config.wf = true)
    (hlow : modeField s.config v ≠ s.config.modeLowNoise)
    (hdis : modeField s.config v ≠ s.config.modeDisabled) :
    regWrite s.config.addrPwrMgmt.toNat v now s =
      raiseFatal (s.setCfgByte s.config.addrPwrMgmt.toNat v) := by
  obtain ⟨-, -, -, hfatal⟩ :=
    pwrWriteByModeField v now (s.setCfgByte s.config.addrPwrMgmt.toNat v)
  rw [regWrite_configRegister v now (category_addrPwrMgmt hwf), if_pos rfl]
  exact hfatal hlow hdis

/-- A register write sets the latch by an unsupported mode code at ADDR_PWR_MGMT and in no other way
(60_exceptions.md R224). -/
theorem regWrite_fatal_iff {a : Nat} {v : Byte} {s : State} (now : Time) (hwf : s.config.wf = true)
    (hf : s.fatal = false) :
    (regWrite a v now s).fatal = true ↔ a = s.config.addrPwrMgmt.toNat ∧
      modeField s.config v ≠ s.config.modeLowNoise ∧
      modeField s.config v ≠ s.config.modeDisabled := by
  constructor
  · intro hfatal
    rcases regWrite_cases a v now s with ⟨-, h⟩ | ⟨-, -, h⟩ | ⟨-, ha, h⟩
    · simp [h, hf] at hfatal
    · simp [h, hf] at hfatal
    · rcases pwrWrite_cases v now (s.setCfgByte a v) with ⟨-, hp⟩ | ⟨-, -, hp⟩ | ⟨hmode, -⟩
      · simp [h, hp, hf] at hfatal
      · simp [h, hp, hf] at hfatal
      · exact ⟨ha, by simpa [unsupportedMode] using hmode⟩
  · rintro ⟨rfl, hlow, hdis⟩
    rw [regWrite_unsupported now hwf hlow hdis]
    rfl

/-! ## The command that makes a fatal write -/

/-- A command with a write target leaves the latch as its register write does. -/
theorem Effect.fatal_of_writeTarget {s t : State} {i : Instr} {p : Nat} {v : Byte}
    (h : Effect s i t) (hwrite : writeTarget i s = some (p, v)) :
    t.fatal = (regWrite p v s.now s).fatal := by
  cases h with
  | aborted i port cell =>
    obtain ⟨-, hnone⟩ := targets_of_not_accepted port cell
    simp [hnone] at hwrite
  | wrote b q fsm enabled ptr | wroteFatal b q fsm enabled ptr =>
    obtain ⟨rfl, rfl⟩ : q = p ∧ b = v := by
      simpa [writeTarget, fsm, enabled, ptr] using hwrite
    rfl
  | portWrote r b | portWroteFatal r b =>
    obtain ⟨rfl, rfl⟩ : r.toNat = p ∧ b = v := by simpa [writeTarget] using hwrite
    rfl
  | selected b fsm => simp [writeTarget, fsm] at hwrite
  | opened | readFirst | readOn | endedRead | endedWrite | portRead | portUnrecognized =>
    simp [writeTarget] at hwrite

/-- A command that sets the latch is a register write at its write target, answered FATAL, and does
nothing after it: the pointer of a bus write does not advance (40_bus_protocol.md R128). -/
theorem Effect.fatal_write {s t : State} {i : Instr} (h : Effect s i t) (hs : s.fatal = false)
    (ht : t.fatal = true) :
    ∃ p v, writeTarget i s = some (p, v) ∧ t = (regWrite p v s.now s).respond .fatal := by
  cases h with
  | wroteFatal b p fsm enabled ptr => exact ⟨p, b, by simp [writeTarget, fsm, enabled, ptr], rfl⟩
  | portWroteFatal r v => exact ⟨r.toNat, v, rfl, rfl⟩
  | wrote b p _ _ _ running => exact absurd ht (ne_true_of_eq_false running)
  | portWrote r v running => exact absurd ht (ne_true_of_eq_false running)
  | aborted | opened | selected | readFirst | readOn | endedRead | endedWrite | portRead
  | portUnrecognized => simp [hs] at ht

/-! ## The command that aborts -/

/-- PERR is the answer of `Abort` alone, which runs outside the accepting cells only
(60_exceptions.md R221). -/
theorem Effect.not_accepted_of_perr {s t : State} {i : Instr} (h : Effect s i t)
    (hrsp : t.rsp = some .perr) : accepted i s = false := by
  cases h with
  | aborted i port cell => exact cell
  | opened | selected | readFirst | readOn | wrote | wroteFatal | endedRead | endedWrite | portRead
  | portWrote | portWroteFatal | portUnrecognized => simp at hrsp

/-! ## The statements -/

/-- Settles O57: the state after the step is good (`goodStatesStepToGoodStates`), and in a good running
state the stored code tells the power state (`PowerInv.last_iff_storedMode`). -/
theorem storedModeIsPowerState : Obligations.StoredModeIsPowerState := by
  intro s t hs hstep hf
  obtain ⟨hwf, -, -, -, -, hpower⟩ := goodStatesStepToGoodStates s t hs hstep
  exact PowerInv.last_iff_storedMode hpower hwf hf

/-- Settles O13, by the cases of a step (`step_next`): a halted block neither waits nor runs a command,
so that the input taken was the reset event. -/
theorem onlyResetLeavesHaltedState : Obligations.OnlyResetLeavesHaltedState := by
  intro s hf
  refine ⟨fun i => exec_of_halted i hf, fun t hstep => ?_⟩
  obtain ⟨-, ⟨-, hrunning, -⟩ | ⟨rest, hin, rfl⟩ | ⟨now, w, rest, -, hexec⟩⟩ := step_next hstep
  · exact absurd hf (ne_true_of_eq_false hrunning)
  · exact ⟨rfl, rest, hin⟩
  · obtain ⟨hrunning, -⟩ := exec_effect hexec
    exact absurd hf (ne_true_of_eq_false hrunning)

/-- Settles O23: `exec_of_not_accepted` for the cells that abort, `Effect.not_accepted_of_perr` for the
others. -/
theorem abortExactlyOutsideTable : Obligations.AbortExactlyOutsideTable := by
  intro i s _ hf
  refine ⟨fun hcell => exec_of_not_accepted hcell hf, fun hcell t hexec hrsp => ?_⟩
  obtain ⟨-, heffect⟩ := exec_effect hexec
  exact absurd hcell (ne_true_of_eq_false (heffect.not_accepted_of_perr hrsp))

/-- Settles O40: a command sets the latch by its register write (`Effect.fatal_write`,
`Effect.fatal_of_writeTarget`), which is fatal exactly for an unsupported code at ADDR_PWR_MGMT
(`regWrite_fatal_iff`) and then stores its byte and sets the latch (`regWrite_unsupported`). -/
theorem fatalOnlyByUnsupportedMode : Obligations.FatalOnlyByUnsupportedMode := by
  intro i s t hgood hf hexec
  obtain ⟨hwf, -, hcfg, -⟩ := hgood
  obtain ⟨-, heffect⟩ := exec_effect hexec
  refine ⟨⟨fun ht => ?_, fun ⟨v, hwrite, hunsupported⟩ => ?_⟩, fun v hwrite ht => ?_⟩
  · obtain ⟨p, v, hwrite, rfl⟩ := heffect.fatal_write hf ht
    obtain ⟨rfl, hunsupported⟩ := (regWrite_fatal_iff s.now hwf hf).1 ht
    exact ⟨v, hwrite, hunsupported⟩
  · rw [heffect.fatal_of_writeTarget hwrite]
    exact (regWrite_fatal_iff s.now hwf hf).2 ⟨rfl, hunsupported⟩
  · obtain ⟨p, w, hwrite', rfl⟩ := heffect.fatal_write hf ht
    obtain ⟨rfl, rfl⟩ : s.config.addrPwrMgmt.toNat = p ∧ v = w := by
      simpa [hwrite] using hwrite'
    obtain ⟨-, hlow, hdis⟩ := (regWrite_fatal_iff s.now hwf hf).1 ht
    refine ⟨?_, fun a ha => ?_, ?_⟩
    · exact regWrite_cfgByte_same v s.now hcfg (category_addrPwrMgmt hwf)
    · exact regWrite_cfgByte_other v s.now ha
    · rw [regWrite_unsupported s.now hwf hlow hdis]
      rfl

end Sys2Proof.Machine

/-! # Proofs for the statements on 70_reset_and_hazards.md

First the step that takes a reset event, then the statement. -/

namespace Sys2Proof.Machine

open Sys2Proof

/-! ## The step of a reset event -/

theorem fetch_of_inbox_reset {s : State} {rest : List Input} (h : s.inbox = .reset :: rest) :
    fetch s = .reset { s with inbox := rest } := by
  simp [fetch, h]

theorem step_of_fetch_reset {s u : State} (hwf : s.config.wf = true) (h : fetch s = .reset u) :
    step s = .next (resetEvent u) := by
  simp [step, hwf, h]

/-! ## The statement -/

/-- Settles O9: the step is the reset event, which never looks at the latch, and it leaves the block as
`State.ofConfig` of its own configuration does, whose fields `resetValues` gives. -/
theorem resetEventRestoresEverything : Obligations.ResetEventRestoresEverything := by
  intro s rest hwf hin
  have hstep : step s = .next (resetEvent { s with inbox := rest }) :=
    step_of_fetch_reset hwf (fetch_of_inbox_reset hin)
  obtain ⟨-, -, hvalues⟩ := resetValues
  obtain ⟨hfsm, hptr, hdir, hcfg, hdata, hlast, hidx, hfatal, -⟩ := hvalues s.config hwf
  exact ⟨_, hstep, hfsm, hptr, hdir, hcfg, hdata, hlast, hidx, hfatal, rfl⟩

end Sys2Proof.Machine

/-! # Proof for the statement on the host's reset state -/

namespace Sys2Proof.Machine

open Sys2Proof

/-- Settles O60: `State.reset` is `State.ofConfig` of REFCFG by definition, so its two configuration bytes
are the two that `resetValues` gives for REFCFG, and the environment's fields are empty. -/
theorem resetStateHasReferenceConfig : Obligations.ResetStateHasReferenceConfig := by
  obtain ⟨hpwr, hother, -⟩ := resetValues
  exact ⟨rfl, rfl, hpwr, hother, rfl, rfl, rfl⟩

end Sys2Proof.Machine
